-- ==== Sys2Proof/Word.lean ====
section
/-! DEFINITION. The word types of the A624's frames and clock. Quantities the manual counts (positions, times,
cue numbers) are natural numbers; only what software or a partner sees as bits is a bit vector. -/

namespace Sys2Proof

/-- One byte of a frame on any of the three ports (R154). -/
abbrev Byte := BitVec 8

/-- A 16-bit field of a frame: a strip word (R165), a check (R156), a level code (R167). -/
abbrev Word16 := BitVec 16

/-- A value of the show clock: milliseconds, 32 bits, wrapping (R1). -/
abbrev ClockWord := BitVec 32

/-- A unit address or address mask (R159). -/
abbrev Address := BitVec 5

/-- A set of the thirteen events, bit numbers as in section 9.8. -/
abbrev EventSet := BitVec 13

end Sys2Proof
end

