-- ==== Sys2Proof/Config.lean ====
section
/-! DEFINITION. Sizes and limits the manual fixes, and the free values (constants with no body) for what it
leaves open. -/

namespace Sys2Proof.Config

/-- The cue table holds at most 500 records (R22). -/
def tableCapacity : Nat := 500

/-- The pool has room for 6000 moves (R23). -/
def poolCapacity : Nat := 6000

/-- Room of the edit buffer for moves (R24). -/
def draftMoves : Nat := 128

/-- Room of the edit buffer for mute actions (R24). -/
def draftActions : Nat := 8

/-- Top of the position scale (R3). -/
def maxPosition : Nat := 1023

/-- Largest time in tenths of a second (00_scope section 7.1). -/
def maxTenths : Nat := 9999

/-- Largest cue number (R19). -/
def maxCue : Nat := 60000

/-- The code of an absent time field (section 9.7). -/
def absentTime : Nat := 0xFFFF

/-- The code of an absent curve, and of no target in BANK ASSIGN (section 9.8). -/
def absentByte : Nat := 0xFF

/-- A report restarts the silence timer at 100 ms (R108). -/
def silenceTime : Nat := 100

/-- A resolution completes no later than 20 ms after its start (R91). -/
def resolutionBound : Nat := 20

/-- The collision count stays at 65535 (R164). -/
def maxCollisions : Nat := 65535

/-- The pending pulse count stops at 255 (R180). -/
def maxPulses : Nat := 255

/-- The error counter stops at 15 (R172). -/
def maxErrors : Nat := 15

/-- FREE VALUE (log 3): whether, at the idle step numbered by the first argument, the event numbered by the
second, which may fall now or later within its bound (R91, R163, R166), falls now. Nothing constrains it. -/
opaque occursNow : Nat → Nat → Bool

/-- FREE VALUE (log 2): the place, counted round the events that fall at one instant, of the one taken first at the
idle step numbered by the argument. Nothing constrains it, so any of them may be first. -/
opaque takenFirst : Nat → Nat

end Sys2Proof.Config
end

