-- ==== Sys2Proof/Syntax.lean ====
section
/-! DEFINITION. The commands of the A624: one constructor of `Instr` for each row of the table of operations
and events (spec/opcode_table.json). -/

namespace Sys2Proof

/-- A target: channels C1–C64 are 0–63, groups G1–G16 are 64–79 (frames number them 1–80, 00_scope section 5). -/
abbrev Target := Fin 80

/-- A channel C1–C64, numbered from 0. -/
abbrev Channel := Fin 64

/-- A control group G1–G16, numbered from 0. -/
abbrev Group := Fin 16

/-- A mute group M1–M8, numbered from 0. -/
abbrev MuteGroup := Fin 8

/-- A strip S1–S16, numbered from 0. -/
abbrev Strip := Fin 16

/-- The filtered level of an input line. -/
inductive Level where
  | low
  | high
deriving DecidableEq, Repr

/-- What an order frame carries beside its kind: address byte, tag and payload (section 9.6). The length byte
is the payload's length and the check is good. -/
structure OrderFrame where
  address : Byte
  tag     : Byte
  payload : List Byte
deriving DecidableEq, Repr

/-- The commands: 43 orders with their frames, and the events of the ports, timers and lines. -/
inductive Instr where
  /-- GO (R47–R54). -/
  | go (f : OrderFrame)
  /-- HOLD (R55). -/
  | hold (f : OrderFrame)
  /-- RESUME (R56). -/
  | resume (f : OrderFrame)
  /-- GOTO (R57). -/
  | goto (f : OrderFrame)
  /-- BACK (R58). -/
  | back (f : OrderFrame)
  /-- STANDBY SET (R46). -/
  | standbySet (f : OrderFrame)
  /-- STOP SET (R131). -/
  | stopSet (f : OrderFrame)
  /-- STOP RELEASE (R131). -/
  | stopRelease (f : OrderFrame)
  /-- SHOW RESET (R62). -/
  | showReset (f : OrderFrame)
  /-- RECORD BEGIN (R26). -/
  | recordBegin (f : OrderFrame)
  /-- MOVE ADD (R27). -/
  | moveAdd (f : OrderFrame)
  /-- MUTE ACTION ADD (R29). -/
  | muteActionAdd (f : OrderFrame)
  /-- RECORD END (R30). -/
  | recordEnd (f : OrderFrame)
  /-- RECORD ABANDON (R32). -/
  | recordAbandon (f : OrderFrame)
  /-- RECORD LIVE (R33). -/
  | recordLive (f : OrderFrame)
  /-- CUE DELETE (R35). -/
  | cueDelete (f : OrderFrame)
  /-- CUE READ (R36). -/
  | cueRead (f : OrderFrame)
  /-- MOVE READ (R37). -/
  | moveRead (f : OrderFrame)
  /-- TABLE INFO (R38). -/
  | tableInfo (f : OrderFrame)
  /-- BASE SET (R66). -/
  | baseSet (f : OrderFrame)
  /-- PARK (R119). -/
  | park (f : OrderFrame)
  /-- UNPARK (R121). -/
  | unpark (f : OrderFrame)
  /-- TARGET READ (R124). -/
  | targetRead (f : OrderFrame)
  /-- GROUP ASSIGN (R126). -/
  | groupAssign (f : OrderFrame)
  /-- MUTE SET (R128). -/
  | muteSet (f : OrderFrame)
  /-- MUTE GROUP ASSIGN (R127). -/
  | muteGroupAssign (f : OrderFrame)
  /-- EXEMPT SET (R130). -/
  | exemptSet (f : OrderFrame)
  /-- MUTE CONFIG (R141). -/
  | muteConfig (f : OrderFrame)
  /-- BANK ASSIGN (R106). -/
  | bankAssign (f : OrderFrame)
  /-- PAGE SELECT (R107). -/
  | pageSelect (f : OrderFrame)
  /-- SURFACE CONFIG (R123). -/
  | surfaceConfig (f : OrderFrame)
  /-- WINDOW SET (R146). -/
  | windowSet (f : OrderFrame)
  /-- WINDOW CLEAR (R147). -/
  | windowClear (f : OrderFrame)
  /-- OUTPUT CONFIG (R149). -/
  | outputConfig (f : OrderFrame)
  /-- HEARTBEAT (R171). -/
  | heartbeat (f : OrderFrame)
  /-- SUPERVISION CONFIG (R168). -/
  | supervisionConfig (f : OrderFrame)
  /-- RECLAIM (R175). -/
  | reclaim (f : OrderFrame)
  /-- STATUS READ (R182). -/
  | statusRead (f : OrderFrame)
  /-- STATUS CLEAR (R183). -/
  | statusClear (f : OrderFrame)
  /-- STATUS MASK (R181). -/
  | statusMask (f : OrderFrame)
  /-- ATTENTION CONFIG (R181). -/
  | attentionConfig (f : OrderFrame)
  /-- ADDRESS MASK SET (R159). -/
  | addressMaskSet (f : OrderFrame)
  /-- PLAYBACK CONFIG (R63). -/
  | playbackConfig (f : OrderFrame)
  /-- A frame with a good check whose kind section 9.7 does not list (R160). -/
  | unknownOrder (kind : Byte) (f : OrderFrame)
  /-- A frame with a good check that matches no address of this unit (R158). -/
  | ignoredFrame (kind : Byte) (f : OrderFrame)
  /-- A completed frame with the check it carried, which does not agree (R157). -/
  | frameCheckFail (kind : Byte) (f : OrderFrame) (check : Word16)
  /-- The bytes `received` arrive, then `last`, with a framing fault if the flag says so: the frame in
  RECEIVE is abandoned (R157). -/
  | frameAbandon (received : List Byte) (last : Byte) (framingFault : Bool)
  /-- The bytes `received` arrive, then a gap of more than 1 ms (R157). -/
  | frameGapExpiry (received : List Byte)
  /-- The pending answer starts (R163). -/
  | answerSend
  /-- The answer's last check byte has gone out (R163). -/
  | answerSent
  /-- A byte arrives in ANSWER PENDING (R163), with a framing fault if the flag says so. -/
  | answerPendingCollision (byte : Byte) (framingFault : Bool)
  /-- The answer's byte number `index` reads back as `byte`, with a framing fault if the flag says so (R164). -/
  | readbackCollision (index : Nat) (byte : Byte) (framingFault : Bool)
  /-- A valid surface report: scan count and the words of S1–S16 (R108, R109, R165). -/
  | surfaceReport (scan : Byte) (words : Vector Word16 16)
  /-- A surface frame that completes with the check it carried, which does not agree (R108). -/
  | surfaceFrameDropped (scan : Byte) (words : Vector Word16 16) (check : Word16)
  /-- The bytes `received` arrive on the surface port, then a gap of more than 100 µs (R165). -/
  | surfaceGapExpiry (received : List Byte)
  /-- A built motor frame starts (R166). -/
  | motorFrameSend
  /-- The silence timer reaches 0 (R115). -/
  | surfaceLoss
  /-- A strip's stuck timer reaches the stuck time (R114). -/
  | stuckTouchExpiry (strip : Strip)
  /-- A target's glide elapsed reaches its glide time (R118). -/
  | glideExpiry (target : Target)
  /-- The filtered GO line falls (R50). -/
  | goLinePress
  /-- The follow timer reaches 0 (R53). -/
  | followExpiry
  /-- The GO lockout runs out (R51). -/
  | lockoutExpiry
  /-- The delay of a target's WAITING entry reaches 0 (R78, R79). -/
  | delayExpiry (target : Target)
  /-- The elapsed of a target's RUNNING entry reaches its duration (R80). -/
  | fadeCompletion (target : Target)
  /-- The resolution in flight completes (R98). -/
  | resolutionCompletion
  /-- A channel's mute ramp reaches its end (R139). -/
  | rampArrival (channel : Channel)
  /-- The filtered STOP line falls (R132). -/
  | stopLineFall
  /-- The filtered STOP line rises (R132). -/
  | stopLineRise
  /-- The output timer reaches its next expiry (R151). -/
  | outputPeriodExpiry
  /-- The supervision window reaches its length (R169). -/
  | windowExpiry
  /-- One ATTN pulse ends (R180). -/
  | attnPulse
  /-- Power-on, or a fall of the filtered RESET line (R2). -/
  | fullReset
  /-- The end of a full reset: the address pins and the line levels then (R2, R159, R50, R132). -/
  | fullResetEnd (pins : Address) (goLine stopLine : Level)
  /-- The bytes `received` arrive on the surface port, then `last` with a framing fault (R165). -/
  | surfaceFramingFault (received : List Byte) (last : Byte)
  /-- The filtered GO line rises (R50). -/
  | goLineRise
deriving DecidableEq, Repr

end Sys2Proof
end

