-- ==== Sys2Proof/Machine/State.lean ====
section
/-! DEFINITION. The state of the A624, block by block as section 3 of the introduction divides it, and the
state right after a full reset. Plain data throughout. -/

namespace Sys2Proof.Machine

/-- No condition of the manual stops the part: a broken frame is dropped and latched, an order that does not fit
is answered with a reason. So there is no fault. -/
inductive Fault
deriving DecidableEq, Repr

/-- Why a step could have no meaning. Safe: no arm of `exec` raises it. -/
inductive Refusal where
  /-- Raised by an arm of `exec` whose command has no meaning yet; none has. Safe. -/
  | notModelled (mnemonic : String)
deriving DecidableEq, Repr

/-! ### Link Port (09) -/

/-- An answer frame's contents (R162): address with bit 7 set, the order's kind and tag, the payload whose first
byte is the result. -/
structure LinkAnswer where
  address : Byte
  kind    : Byte
  tag     : Byte
  payload : List Byte
deriving DecidableEq, Repr

/-- The states of the Link Port (R157, R163, R164). RECEIVE holds the bytes gathered after the lead. -/
inductive PortState where
  | hunt
  | receive (gathered : List Byte)
  | answerPending (answer : LinkAnswer)
  | sending (answer : LinkAnswer)
deriving DecidableEq, Repr

/-- The Link Port: unit address and mask (R159), port state, collision count (R164). -/
structure LinkPort where
  address    : Address
  mask       : Address
  port       : PortState
  collisions : Nat
deriving DecidableEq, Repr

/-! ### Cue Store (02) -/

/-- The kinds of a cue (R19). -/
inductive CueKind where
  | track
  | block
deriving DecidableEq, Repr

/-- The four curves (R87). -/
inductive Curve where
  | linear
  | slow
  | fast
  | s
deriving DecidableEq, Repr

/-- A move as a record keeps it: fade, delay and curve may be absent (R20). Times in tenths of a second. -/
structure Move where
  target   : Target
  position : Nat
  fade     : Option Nat
  delay    : Option Nat
  curve    : Option Curve
deriving DecidableEq, Repr

/-- A mute subject: a mute group or a channel (R21). -/
inductive MuteSubject where
  | group (m : MuteGroup)
  | channel (c : Channel)
deriving DecidableEq, Repr

/-- The state a mute action or MUTE SET asks for: MUTE or OPEN (R21). -/
inductive MuteState where
  | mute
  | opened
deriving DecidableEq, Repr

/-- A mute action (R21). -/
structure MuteAction where
  subject : MuteSubject
  state   : MuteState
deriving DecidableEq, Repr

/-- A cue record (R19); the open edit buffer holds the same fields (R24). -/
structure CueRecord where
  number       : Nat
  kind         : CueKind
  defaultFade  : Nat
  defaultCurve : Curve
  followWait   : Option Nat
  moves        : List Move
  actions      : List MuteAction
deriving DecidableEq, Repr

/-- The Cue Store: table in number order (R22), pool free count (R23), edit buffer, none when closed (R24). -/
structure CueStore where
  table    : List CueRecord
  poolFree : Nat
  edit     : Option CueRecord
deriving DecidableEq, Repr

/-! ### Playback Controller and Track Resolver (03, 05) -/

/-- A resolution in flight (R89). -/
structure Resolution where
  goal          : Nat
  gotoTime      : Nat
  start         : ClockWord
  holdRequested : Bool
deriving DecidableEq, Repr

/-- The playback state (R42). RESOLVING is the state while a resolution is in flight, and carries its record. -/
inductive PlayState where
  | standby
  | running
  | held
  | resolving (r : Resolution)
deriving DecidableEq, Repr

/-- A standby cue and its explicit mark (R45). -/
structure StandbyCue where
  number   : Nat
  explicit : Bool
deriving DecidableEq, Repr

/-- The playback configuration (R63): lockout in ms, times in tenths of a second. -/
structure PlaybackConfig where
  lockoutTime : Nat
  gotoTime    : Nat
  backTime    : Nat
  localGo     : Bool
deriving DecidableEq, Repr

/-- The Playback Controller: state (R42), freeze (R43), current cue (R44), standby (R45), follow remaining in ms
(R52), lockout as ms since the GO it guards (R51), configuration (R63), the level of the GO line (R50). -/
structure Playback where
  state   : PlayState
  freeze  : Bool
  current : Nat
  standby : Option StandbyCue
  follow  : Option Nat
  lockout : Option Nat
  config  : PlaybackConfig
  goLine  : Level
deriving DecidableEq, Repr

/-! ### Fade Engine (04) -/

/-- The phase of a fade entry with the fields that exist in it alone (R68): delay remaining while WAITING, start
position and elapsed while RUNNING, in ms. -/
inductive FadePhase where
  | waiting (delay : Nat)
  | running (start elapsed : Nat)
deriving DecidableEq, Repr

/-- A fade entry (R68); owning cue 0 is a GOTO entry. -/
structure FadeEntry where
  target   : Target
  owner    : Nat
  goal     : Nat
  duration : Nat
  curve    : Curve
  phase    : FadePhase
deriving DecidableEq, Repr

/-- The Fade Engine: rest (R65) and base (R66) positions, the fade table oldest first (R69), the last completed
cue (R81). -/
structure FadeEngine where
  rest          : Vector Nat 80
  base          : Vector Nat 80
  entries       : List FadeEntry
  lastCompleted : Nat
deriving DecidableEq, Repr

/-! ### Ownership Unit (06) -/

/-- An ownership record (R103). -/
inductive Owner where
  | auto
  | operator (strip : Strip)
  | glide (release time elapsed : Nat)
  | parked (position start duration elapsed : Nat)
deriving DecidableEq, Repr

/-- A running stuck timer (R105, R114): its reference position and its elapsed ms. -/
structure StuckTimer where
  reference : Nat
  elapsed   : Nat
deriving DecidableEq, Repr

/-- The state of a strip (R105); the latched target and the stuck timer exist while TOUCHED. -/
inductive StripState where
  | idle
  | touched (target : Target) (stuck : Option StuckTimer)
  | blocked
deriving DecidableEq, Repr

/-- A strip record (R105). -/
structure StripRecord where
  state        : StripState
  lastPosition : Nat
deriving DecidableEq, Repr

/-- The Ownership Unit: ownership records (R103), strip records (R105), bank table (R106), active page (R107),
stuck time in s and glide time in ms (R123). -/
structure Ownership where
  owners    : Vector Owner 80
  strips    : Vector StripRecord 16
  bank      : Vector (Vector (Option Target) 16) 4
  page      : Fin 4
  stuckTime : Nat
  glideTime : Nat
deriving DecidableEq, Repr

/-! ### Surface Port (06 section 6.3, 09 section 9.5) -/

/-- A motor word: the leave code or a position (R113, R166). -/
inductive MotorWord where
  | leave
  | drive (position : Nat)
deriving DecidableEq, Repr

/-- A motor frame (R166). -/
structure MotorFrame where
  scan  : Byte
  page  : Fin 4
  words : Vector MotorWord 16
deriving DecidableEq, Repr

/-- The surface receiver (R165); RECEIVE holds the bytes gathered after the lead. -/
inductive SurfaceRx where
  | hunt
  | receive (gathered : List Byte)
deriving DecidableEq, Repr

/-- The Surface Port: the silence timer's remaining ms, none while the surface is not present (R108); the
receiver; the motor frames built and waiting, oldest first; the motor frame last put on the port (R166). -/
structure SurfacePort where
  silence    : Option Nat
  rx         : SurfaceRx
  motorQueue : List MotorFrame
  motorOut   : Option MotorFrame
deriving DecidableEq, Repr

/-! ### Group and Mute Unit (07) -/

/-- A mute ramp record (R135): attenuations in tenths of a dB, rate and elapsed in ms. -/
inductive MuteRamp where
  | opened
  | muting (start rate : Nat) (stopRate : Bool) (elapsed : Nat)
  | muted
  | opening (start rate elapsed : Nat)
deriving DecidableEq, Repr

/-- The three ramp times in ms (R141). -/
structure MuteTimes where
  mute   : Nat
  unmute : Nat
  stop   : Nat
deriving DecidableEq, Repr

/-- The Group and Mute Unit: membership lists (R126) and mute group sets (R127), exempt set (R130), mute group
states and channel flags (R128), stop order flag and STOP line (R131, R132), ramps (R135), ramp times (R141). -/
structure MuteUnit where
  groups      : Vector (List Group) 64
  muteSets    : Vector (BitVec 8) 64
  exempt      : Vector Bool 64
  groupStates : Vector MuteState 8
  flags       : Vector Bool 64
  stopFlag    : Bool
  stopLine    : Level
  ramps       : Vector MuteRamp 64
  times       : MuteTimes
deriving DecidableEq, Repr

/-! ### Output Unit (08) -/

/-- An enabled window (R143): channels 1–64, slots 0–127. -/
structure Window where
  first : Nat
  last  : Nat
  base  : Nat
  lock  : Bool
deriving DecidableEq, Repr

/-- A level code (R7). -/
inductive LevelCode where
  | off
  | level (tenths : Int)
deriving DecidableEq, Repr

/-- A gain frame (R151). -/
structure GainFrame where
  counter : Byte
  codes   : Vector LevelCode 128
deriving DecidableEq, Repr

/-- The Output Unit: windows, none when disabled (R143); output period and enable (R149); the instant of the
output timer's next expiry (R150); frame counter (R152); the gain frame last put on the port (R153). -/
structure OutputUnit where
  windows : Vector (Option Window) 8
  period  : Nat
  enabled : Bool
  next    : Option ClockWord
  counter : Byte
  gainOut : Option GainFrame
deriving DecidableEq, Repr

/-! ### Link Supervisor (10) -/

/-- The actions on loss (R173). -/
inductive LossAction where
  | report
  | localMode
  | safe
deriving DecidableEq, Repr

/-- The supervision configuration (R168). -/
structure SupervisionConfig where
  enable    : Bool
  window    : Nat
  threshold : Nat
  action    : LossAction
  safeCue   : Nat
  safeTime  : Nat
  key       : Byte
  seed      : Byte
deriving DecidableEq, Repr

/-- A running supervision window (R169), in ms. -/
structure SupervisionWindow where
  length  : Nat
  elapsed : Nat
deriving DecidableEq, Repr

/-- The link states (R172). -/
inductive LinkState where
  | off
  | linked
  | degraded
  | lost
deriving DecidableEq, Repr

/-- The Link Supervisor: configuration (R168), running window, none while disabled (R169), error counter (R172),
question (R170), link state (R172), LOCAL mode (R174). -/
structure Supervisor where
  config    : SupervisionConfig
  window    : Option SupervisionWindow
  counter   : Nat
  question  : Byte
  link      : LinkState
  localMode : Bool
deriving DecidableEq, Repr

/-! ### Status Unit (11) -/

/-- The thirteen events (R178). -/
inductive Event where
  | cueDone
  | endReached
  | lockSkip
  | touchStuck
  | surfaceLost
  | frameError
  | groupRefused
  | goIgnored
  | resolveDone
  | linkDegraded
  | linkLost
  | noSafeCue
  | stateChanged
deriving DecidableEq, Repr

/-- The attention modes (R180). -/
inductive AttentionMode where
  | level
  | pulse
deriving DecidableEq, Repr

/-- The clear policies (R182). -/
inductive ClearPolicy where
  | orderClears
  | readClears
deriving DecidableEq, Repr

/-- The Status Unit: event latch (R178), event mask (R180), attention mode and clear policy (R181), pending pulse
count (R180). -/
structure StatusUnit where
  latch  : EventSet
  mask   : EventSet
  mode   : AttentionMode
  policy : ClearPolicy
  pulses : Nat
deriving DecidableEq, Repr

/-! ### The part -/

/-- The state of the part: the queue of commands, the reset in progress (R2), the show clock (R1), the blocks,
and `choices`, the model's own counter that free values are drawn with (log 2, 3, 17). -/
structure State where
  pending : List Instr
  inReset : Bool
  clock   : ClockWord
  link    : LinkPort
  cues    : CueStore
  play    : Playback
  fade    : FadeEngine
  own     : Ownership
  surface : SurfacePort
  mute    : MuteUnit
  out     : OutputUnit
  sup     : Supervisor
  status  : StatusUnit
  choices : Nat
deriving DecidableEq, Repr

/-- The base position of a target after a full reset: 0 for a channel, 768 for a group (R66). -/
def resetPosition (t : Target) : Nat :=
  if t.val < 64 then 0 else 768

/-- Link Port after a full reset (R157, R159, R164); the pins' value is the end of the reset's (log 9). -/
def LinkPort.reset : LinkPort :=
  { address := 0, mask := 0, port := .hunt, collisions := 0 }

/-- Cue Store after a full reset (R41). -/
def CueStore.reset : CueStore :=
  { table := [], poolFree := Config.poolCapacity, edit := none }

/-- Playback Controller after a full reset (R64); the GO line high (log 9). -/
def Playback.reset : Playback :=
  { state := .standby, freeze := false, current := 0, standby := none, follow := none, lockout := none
    config := { lockoutTime := 300, gotoTime := 20, backTime := 20, localGo := true }
    goLine := .high }

/-- Fade Engine after a full reset (R85). -/
def FadeEngine.reset : FadeEngine :=
  { rest := Vector.ofFn resetPosition, base := Vector.ofFn resetPosition, entries := [], lastCompleted := 0 }

/-- Ownership Unit after a full reset (R125). -/
def Ownership.reset : Ownership :=
  { owners := Vector.replicate 80 .auto
    strips := Vector.replicate 16 { state := .idle, lastPosition := 0 }
    bank := Vector.replicate 4 (Vector.replicate 16 none)
    page := 0, stuckTime := 180, glideTime := 500 }

/-- Surface Port after a full reset (R108, R165, R166). -/
def SurfacePort.reset : SurfacePort :=
  { silence := none, rx := .hunt, motorQueue := [], motorOut := none }

/-- Group and Mute Unit after a full reset (R142); the STOP line high (log 9). -/
def MuteUnit.reset : MuteUnit :=
  { groups := Vector.replicate 64 [], muteSets := Vector.replicate 64 0, exempt := Vector.replicate 64 false
    groupStates := Vector.replicate 8 .opened, flags := Vector.replicate 64 false
    stopFlag := false, stopLine := .high, ramps := Vector.replicate 64 .opened
    times := { mute := 20, unmute := 20, stop := 10 } }

/-- Output Unit at the end of a full reset: the first expiry 2 ms later (R143, R149, R150, R152). -/
def OutputUnit.reset : OutputUnit :=
  { windows := Vector.replicate 8 none, period := 2, enabled := true, next := some 2, counter := 0, gainOut := none }

/-- Link Supervisor after a full reset (R176). -/
def Supervisor.reset : Supervisor :=
  { config := { enable := false, window := 500, threshold := 4, action := .report
                safeCue := 0, safeTime := 20, key := 0, seed := 0 }
    window := none, counter := 0, question := 1, link := .off, localMode := false }

/-- Status Unit after a full reset (R179, R180, R181). -/
def StatusUnit.reset : StatusUnit :=
  { latch := 0, mask := 0, mode := .level, policy := .orderClears, pulses := 0 }

/-- The part at the end of a full reset, with the GO and STOP lines high and the pins at 0 (log 9). -/
def State.reset : State :=
  { pending := [], inReset := false, clock := 0
    link := .reset, cues := .reset, play := .reset, fade := .reset, own := .reset, surface := .reset
    mute := .reset, out := .reset, sup := .reset, status := .reset, choices := 0 }

end Sys2Proof.Machine
end

