-- ==== Sys2Proof/Machine/Flags.lean ====
section
/-! DEFINITION. The flags of the part: the event latch, the pending pulse count, the ATTN line and the
present-state set (chapter 11), and STATE_CHANGED at each change of the latter. -/

namespace Sys2Proof.Machine

/-- The bit of an event in the latch, the mask and the frames' event sets (section 9.8). -/
def Event.index : Event → Nat
  | .cueDone => 0
  | .endReached => 1
  | .lockSkip => 2
  | .touchStuck => 3
  | .surfaceLost => 4
  | .frameError => 5
  | .groupRefused => 6
  | .goIgnored => 7
  | .resolveDone => 8
  | .linkDegraded => 9
  | .linkLost => 10
  | .noSafeCue => 11
  | .stateChanged => 12

/-- The set of one event. -/
def Event.bit (e : Event) : EventSet :=
  1#13 <<< e.index

/-- The event is latched (R178). -/
def StatusUnit.latched (u : StatusUnit) (e : Event) : Bool :=
  u.latch.getLsbD e.index

/-- The event is masked (R180). -/
def StatusUnit.masked (u : StatusUnit) (e : Event) : Bool :=
  u.mask.getLsbD e.index

/-- Counts one passage of the event from clear to latched: in PULSE mode an unmasked event raises the pending
pulse count, which stops at 255 (R180). -/
def StatusUnit.countPulse (u : StatusUnit) (e : Event) : StatusUnit :=
  if u.mode = .pulse ∧ u.masked e = false then { u with pulses := min Config.maxPulses (u.pulses + 1) } else u

/-- Latches an event; one already latched stays and gives no pulse (R178, R180). -/
def StatusUnit.record (u : StatusUnit) (e : Event) : StatusUnit :=
  if u.latched e then u else { u.countPulse e with latch := u.latch ||| e.bit }

/-- Clears the events of a set (R182, R183). -/
def StatusUnit.clear (u : StatusUnit) (events : EventSet) : StatusUnit :=
  { u with latch := u.latch &&& ~~~events }

/-- Latches an event in the Status Unit. -/
def latch (e : Event) (s : State) : State :=
  { s with status := s.status.record e }

/-- The surface is present exactly while its silence timer runs (R108). -/
def SurfacePort.present (p : SurfacePort) : Bool :=
  p.silence.isSome

/-- The line is low. -/
def lineLow : Level → Bool
  | .low => true
  | .high => false

/-- Show-stop is active while the STOP line is low or the stop order flag is set (R131). -/
def MuteUnit.stopActive (u : MuteUnit) : Bool :=
  u.stopFlag || lineLow u.stopLine

/-- A resolution is in flight. -/
def PlayState.isResolving : PlayState → Bool
  | .resolving _ => true
  | .standby | .running | .held => false

/-- The present-state set with the link state (R177). -/
structure Present where
  surface    : Bool
  held       : Bool
  resolving  : Bool
  stopActive : Bool
  localMode  : Bool
  editOpen   : Bool
  link       : LinkState
deriving DecidableEq, Repr

/-- The present-state set as its owners hold it (R177). -/
def present (s : State) : Present :=
  { surface := s.surface.present
    held := decide (s.play.state = .held)
    resolving := s.play.state.isResolving
    stopActive := s.mute.stopActive
    localMode := s.sup.localMode
    editOpen := s.cues.edit.isSome
    link := s.sup.link }

/-- STATE_CHANGED is latched when an event changed the present-state set (R177). -/
def noteChanges (before after : State) : State :=
  if present before = present after then after else latch .stateChanged after

/-- What the part does with the ATTN line (R180). PULSING is the line giving its pending pulses, each 20 µs low
and 20 µs released (log 13). -/
inductive AttnLine where
  | released
  | low
  | pulsing
deriving DecidableEq, Repr

/-- The ATTN line (R2, R180). -/
def attnLine (s : State) : AttnLine :=
  if s.inReset then .released else
  match s.status.mode with
  | .level => if s.status.latch &&& ~~~s.status.mask = 0 then .released else .low
  | .pulse => if s.status.pulses = 0 then .released else .pulsing

/-- SLDE is high while the unit sends an answer, and low in a full reset (R2, R154). -/
def slde (s : State) : Level :=
  match s.link.port with
  | .sending _ => if s.inReset then .low else .high
  | .hunt | .receive _ | .answerPending _ => .low

end Sys2Proof.Machine
end

