-- ==== Sys2Proof/Machine/Levels.lean ====
section
/-! DEFINITION. Positions and levels: the position blend (R5), the curves (R86–R88), the fader law (R8, R9) and the
combiner (R11–R14). Exact integer arithmetic throughout. -/

namespace Sys2Proof.Machine

/-- The position blend of `a` toward `b` by the numerator `n` of 4096: to nearest, ties away from zero (R5). -/
def blend (a b n : Nat) : Nat :=
  if a ≤ b then a + ((b - a) * n + 2048) / 4096 else a - ((a - b) * n + 2048) / 4096

/-- The fraction of a duration in 4096ths (R86). -/
def fraction (elapsed duration : Nat) : Nat :=
  4096 * elapsed / duration

/-- The shaped fraction of a curve (R87). -/
def shape (c : Curve) (f : Nat) : Nat :=
  match c with
  | .linear => f
  | .slow => f ^ 2 / 4096
  | .fast => 4096 - (4096 - f) ^ 2 / 4096
  | .s => (3 * f ^ 2 * 4096 - 2 * f ^ 3) / 4096 ^ 2

/-- One segment of the fader law (R8). -/
structure Segment where
  fromPos   : Nat
  toPos     : Nat
  fromLevel : Int
  toLevel   : Int
deriving DecidableEq, Repr

/-- The eight segments (R8). -/
def segments : List Segment :=
  [⟨1, 128, -900, -600⟩, ⟨128, 256, -600, -400⟩, ⟨256, 384, -400, -300⟩, ⟨384, 512, -300, -200⟩,
   ⟨512, 640, -200, -100⟩, ⟨640, 768, -100, 0⟩, ⟨768, 896, 0, 50⟩, ⟨896, 1023, 50, 100⟩]

/-- The segment of a position: the one with from ≤ P < to; position 1023 belongs to the last (R9). -/
def segmentOf (p : Nat) : Segment :=
  (segments.find? fun g => decide (p < g.toPos)).getD ⟨896, 1023, 50, 100⟩

/-- The level of a position in a segment: the exact value rounded to nearest, ties toward plus infinity (R9). -/
def Segment.levelAt (g : Segment) (p : Nat) : Int :=
  let w : Int := (g.toPos : Int) - g.fromPos
  let n : Int := g.fromLevel * w + (g.toLevel - g.fromLevel) * ((p : Int) - g.fromPos)
  (2 * n + w) / (2 * w)

/-- The finite level of a position 1–1023 (R8, R9). -/
def lawLevel (p : Nat) : Int :=
  (segmentOf p).levelAt p

/-- The fader law: position 0 is OFF (R8). -/
def faderLaw (p : Nat) : LevelCode :=
  if p = 0 then .off else .level (lawLevel p)

/-- The combiner of a channel position, its groups' positions and its attenuation (R11–R14): a zero position,
the sum, saturation at +100, the mute, the floor at −900. -/
def combine (channel : Nat) (groups : List Nat) (attenuation : Nat) : LevelCode :=
  if channel = 0 ∨ 0 ∈ groups then .off else
  let t := lawLevel channel + (groups.map lawLevel).sum
  let v := min t 100 - (attenuation : Int)
  if v < -900 then .off else .level v

end Sys2Proof.Machine
end

