-- ==== Sys2Proof/Decode.lean ====
section
/-! DEFINITION. The bytes of frames: the check (R156), the frame layouts (sections 9.6, 9.9), the kinds
(section 9.7), the encoder of orders as link frames and its decoder. The table's rows give no bits, so
`decodeTableWord` answers none. -/

namespace Sys2Proof

/-- One shift of the check's register (R156). -/
def crcShift (r : Word16) : Word16 :=
  if r.msb then (r <<< 1) ^^^ 0x1021#16 else r <<< 1

/-- The check's register after one covered byte (R156). -/
def crcByte (r : Word16) (b : Byte) : Word16 :=
  Nat.repeat crcShift 8 (r ^^^ (b.setWidth 16 <<< 8))

/-- The check over a list of bytes in order (R156). -/
def crc16 (bytes : List Byte) : Word16 :=
  bytes.foldl crcByte 0xFFFF#16

/-- A 16-bit word as two bytes, high byte first (R154). -/
def wordBytes (w : Word16) : List Byte :=
  [(w >>> 8).setWidth 8, w.setWidth 8]

/-- Two bytes, high byte first, as a 16-bit word (R154). -/
def wordOfBytes (hi lo : Byte) : Word16 :=
  hi ++ lo

/-- A number as a 16-bit field, high byte first; a field's range never exceeds it. -/
def nat16 (n : Nat) : List Byte :=
  wordBytes (BitVec.ofNat 16 n)

/-- A number as a 32-bit field, high byte first. -/
def nat32 (n : Nat) : List Byte :=
  nat16 (n / 65536) ++ nat16 n

/-- A number as one byte. -/
def nat8 (n : Nat) : Byte :=
  BitVec.ofNat 8 n

/-- The lead byte of a show link frame (R155). -/
def linkLead : Byte := 0xA5#8

/-- The lead byte of a surface report (R165). -/
def surfaceLead : Byte := 0xC3#8

/-- The lead byte of a motor frame (R166). -/
def motorLead : Byte := 0x3C#8

/-- The lead byte of a gain frame (R167). -/
def gainLead : Byte := 0x96#8

/-- The largest payload: 48 with bit 7 of the address byte clear, 52 with it set (R157). -/
def maxPayload (address : Byte) : Nat :=
  if address.getLsbD 7 then 52 else 48

/-- The bytes the check of a show link frame covers (R155). -/
def coveredBytes (kind : Byte) (f : OrderFrame) : List Byte :=
  [f.address, kind, f.tag, nat8 f.payload.length] ++ f.payload

/-- A show link frame's check (R155). -/
def frameCheck (kind : Byte) (f : OrderFrame) : Word16 :=
  crc16 (coveredBytes kind f)

/-- The bytes of a show link frame after its lead (section 9.6). -/
def frameBody (kind : Byte) (f : OrderFrame) : List Byte :=
  coveredBytes kind f ++ wordBytes (frameCheck kind f)

/-- The bytes of a show link frame (section 9.6). -/
def frameBytes (kind : Byte) (f : OrderFrame) : List Byte :=
  linkLead :: frameBody kind f

/-- The words of a surface report as bytes (section 9.9). -/
def stripBytes (words : Vector Word16 16) : List Byte :=
  words.toList.flatMap wordBytes

/-- The check of a surface report: over the scan count and the words (R165). -/
def surfaceCheck (scan : Byte) (words : Vector Word16 16) : Word16 :=
  crc16 (scan :: stripBytes words)

/-- The bytes of a surface report after its lead (section 9.9). -/
def reportBody (scan : Byte) (words : Vector Word16 16) : List Byte :=
  scan :: stripBytes words ++ wordBytes (surfaceCheck scan words)

/-- The kind and frame of an order; none for a command that is no listed order (section 9.7). -/
def Instr.order? : Instr → Option (Byte × OrderFrame)
  | .go f => some (0x10#8, f)
  | .hold f => some (0x11#8, f)
  | .resume f => some (0x12#8, f)
  | .goto f => some (0x13#8, f)
  | .back f => some (0x14#8, f)
  | .standbySet f => some (0x15#8, f)
  | .stopSet f => some (0x16#8, f)
  | .stopRelease f => some (0x17#8, f)
  | .showReset f => some (0x18#8, f)
  | .recordBegin f => some (0x20#8, f)
  | .moveAdd f => some (0x21#8, f)
  | .muteActionAdd f => some (0x22#8, f)
  | .recordEnd f => some (0x23#8, f)
  | .recordAbandon f => some (0x24#8, f)
  | .recordLive f => some (0x25#8, f)
  | .cueDelete f => some (0x26#8, f)
  | .cueRead f => some (0x27#8, f)
  | .moveRead f => some (0x28#8, f)
  | .tableInfo f => some (0x29#8, f)
  | .baseSet f => some (0x30#8, f)
  | .park f => some (0x31#8, f)
  | .unpark f => some (0x32#8, f)
  | .targetRead f => some (0x33#8, f)
  | .groupAssign f => some (0x34#8, f)
  | .muteSet f => some (0x35#8, f)
  | .muteGroupAssign f => some (0x36#8, f)
  | .exemptSet f => some (0x37#8, f)
  | .muteConfig f => some (0x38#8, f)
  | .bankAssign f => some (0x40#8, f)
  | .pageSelect f => some (0x41#8, f)
  | .surfaceConfig f => some (0x42#8, f)
  | .windowSet f => some (0x50#8, f)
  | .windowClear f => some (0x51#8, f)
  | .outputConfig f => some (0x52#8, f)
  | .heartbeat f => some (0x60#8, f)
  | .supervisionConfig f => some (0x61#8, f)
  | .reclaim f => some (0x62#8, f)
  | .statusRead f => some (0x70#8, f)
  | .statusClear f => some (0x71#8, f)
  | .statusMask f => some (0x72#8, f)
  | .attentionConfig f => some (0x73#8, f)
  | .addressMaskSet f => some (0x74#8, f)
  | .playbackConfig f => some (0x75#8, f)
  | .unknownOrder _ _ | .ignoredFrame _ _ | .frameCheckFail _ _ _ | .frameAbandon _ _ _ | .frameGapExpiry _ => none
  | .answerSend | .answerSent | .answerPendingCollision _ _ | .readbackCollision _ _ _ => none
  | .surfaceReport _ _ | .surfaceFrameDropped _ _ _ | .surfaceGapExpiry _ | .motorFrameSend | .surfaceLoss => none
  | .stuckTouchExpiry _ | .glideExpiry _ | .goLinePress | .followExpiry | .lockoutExpiry | .delayExpiry _ => none
  | .fadeCompletion _ | .resolutionCompletion | .rampArrival _ | .stopLineFall | .stopLineRise => none
  | .outputPeriodExpiry | .windowExpiry | .attnPulse | .fullReset | .fullResetEnd _ _ _ => none
  | .surfaceFramingFault _ _ | .goLineRise => none

/-- The order a kind code names (section 9.7); none for a kind not listed there. -/
def orderOfKind (kind : Byte) (f : OrderFrame) : Option Instr :=
  match kind.toNat with
  | 0x10 => some (.go f)
  | 0x11 => some (.hold f)
  | 0x12 => some (.resume f)
  | 0x13 => some (.goto f)
  | 0x14 => some (.back f)
  | 0x15 => some (.standbySet f)
  | 0x16 => some (.stopSet f)
  | 0x17 => some (.stopRelease f)
  | 0x18 => some (.showReset f)
  | 0x20 => some (.recordBegin f)
  | 0x21 => some (.moveAdd f)
  | 0x22 => some (.muteActionAdd f)
  | 0x23 => some (.recordEnd f)
  | 0x24 => some (.recordAbandon f)
  | 0x25 => some (.recordLive f)
  | 0x26 => some (.cueDelete f)
  | 0x27 => some (.cueRead f)
  | 0x28 => some (.moveRead f)
  | 0x29 => some (.tableInfo f)
  | 0x30 => some (.baseSet f)
  | 0x31 => some (.park f)
  | 0x32 => some (.unpark f)
  | 0x33 => some (.targetRead f)
  | 0x34 => some (.groupAssign f)
  | 0x35 => some (.muteSet f)
  | 0x36 => some (.muteGroupAssign f)
  | 0x37 => some (.exemptSet f)
  | 0x38 => some (.muteConfig f)
  | 0x40 => some (.bankAssign f)
  | 0x41 => some (.pageSelect f)
  | 0x42 => some (.surfaceConfig f)
  | 0x50 => some (.windowSet f)
  | 0x51 => some (.windowClear f)
  | 0x52 => some (.outputConfig f)
  | 0x60 => some (.heartbeat f)
  | 0x61 => some (.supervisionConfig f)
  | 0x62 => some (.reclaim f)
  | 0x70 => some (.statusRead f)
  | 0x71 => some (.statusClear f)
  | 0x72 => some (.statusMask f)
  | 0x73 => some (.attentionConfig f)
  | 0x74 => some (.addressMaskSet f)
  | 0x75 => some (.playbackConfig f)
  | _ => none

/-- Whether section 9.7 lists the kind. -/
def kindListed (kind : Byte) : Bool :=
  (orderOfKind kind ⟨0, 0, []⟩).isSome

/-- The bytes of an order's frame; none for a command that is no listed order. -/
def encode (i : Instr) : Option (List Byte) :=
  (i.order?).map fun o => frameBytes o.1 o.2

/-- The bytes after the lead as a kind and a frame, if the length byte and the check agree (R155, R157). -/
def splitFrame (body : List Byte) : Option (Byte × OrderFrame) :=
  match body with
  | address :: kind :: tag :: length :: rest =>
    let f : OrderFrame := ⟨address, tag, rest.take length.toNat⟩
    if length.toNat ≤ maxPayload address ∧ rest.length = length.toNat + 2
        ∧ rest.drop length.toNat = wordBytes (frameCheck kind f)
    then some (kind, f)
    else none
  | _ => none

/-- The order a whole frame's bytes spell, lead included; none for anything else. -/
def decodeFrame (bytes : List Byte) : Option Instr :=
  match bytes with
  | lead :: body => if lead = linkLead then (splitFrame body).bind fun o => orderOfKind o.1 o.2 else none
  | [] => none

/-- The command a table word spells: the table's rows give no bits, so none (log 22). -/
def decodeTableWord (_nbits _w : Nat) : Option Instr :=
  none

end Sys2Proof
end

