-- ==== Sys2Proof/Machine/Operands.lean ====
section
/-! DEFINITION. The operand fields of orders, reports and answers: reading them from payload bytes with the
clamps and codings of sections 9.7 and 9.8, and writing them back into answer data. -/

namespace Sys2Proof.Machine

/-! ### Reading -/

/-- The payload's byte at an offset. -/
def byteAt (p : List Byte) (i : Nat) : Nat :=
  (p.getD i 0).toNat

/-- The payload's 16-bit field at an offset, high byte first (R154). -/
def wordAt (p : List Byte) (i : Nat) : Nat :=
  (wordOfBytes (p.getD i 0) (p.getD (i + 1) 0)).toNat

/-- A position from outside, clamped to 1023 (R4). -/
def clampPosition (n : Nat) : Nat :=
  min n Config.maxPosition

/-- A time in tenths of a second, clamped to 9999. -/
def clampTenths (n : Nat) : Nat :=
  min n Config.maxTenths

/-- A time field that may be absent (section 9.7, "a"): 0xFFFF is absent, any other is clamped. -/
def timeField (n : Nat) : Option Nat :=
  if n = Config.absentTime then none else some (clampTenths n)

/-- A stuck time in seconds: 0, or clamped into 30–900 (R123). -/
def clampStuck (n : Nat) : Nat :=
  if n = 0 then 0 else min 900 (max 30 n)

/-- A numbered thing coded 1–n. -/
def oneBased (n k : Nat) : Option (Fin n) :=
  if h : 1 ≤ k ∧ k ≤ n then some ⟨k - 1, by omega⟩ else none

/-- A target code 1–80 (section 9.6). -/
def targetOf (k : Nat) : Option Target := oneBased 80 k

/-- A channel code 1–64. -/
def channelOf (k : Nat) : Option Channel := oneBased 64 k

/-- A group code 1–16 (section 9.7). -/
def groupOf (k : Nat) : Option Group := oneBased 16 k

/-- A strip code 1–16. -/
def stripOf (k : Nat) : Option Strip := oneBased 16 k

/-- A page code 0–3. -/
def pageOf (k : Nat) : Option (Fin 4) :=
  if h : k < 4 then some ⟨k, h⟩ else none

/-- A window code 0–7. -/
def windowOf (k : Nat) : Option (Fin 8) :=
  if h : k < 8 then some ⟨k, h⟩ else none

/-- A BANK ASSIGN target: 1–80, or 0xFF for none (section 9.8). -/
def bankTarget (k : Nat) : Option (Option Target) :=
  if k = Config.absentByte then some none else (targetOf k).map some

/-- A cue kind code (section 9.8). -/
def kindOf : Nat → Option CueKind
  | 0 => some .track
  | 1 => some .block
  | _ => none

/-- A curve code (section 9.8). -/
def curveOf : Nat → Option Curve
  | 0 => some .linear
  | 1 => some .slow
  | 2 => some .fast
  | 3 => some .s
  | _ => none

/-- A move's curve byte: a curve, or 0xFF absent (section 9.6). -/
def curveField (k : Nat) : Option (Option Curve) :=
  if k = Config.absentByte then some none else (curveOf k).map some

/-- A yes/no, lock, enable or local GO byte (section 9.8). -/
def flagOf : Nat → Option Bool
  | 0 => some false
  | 1 => some true
  | _ => none

/-- A mute state code (section 9.8). -/
def muteStateOf : Nat → Option MuteState
  | 0 => some .opened
  | 1 => some .mute
  | _ => none

/-- A mute subject code: 1–64 channels, 65–72 mute groups (section 9.8). -/
def subjectOf (k : Nat) : Option MuteSubject :=
  match channelOf k with
  | some c => some (.channel c)
  | none => (oneBased 8 (k - 64)).map .group

/-- A supervision action code (section 9.8). -/
def actionOf : Nat → Option LossAction
  | 0 => some .report
  | 1 => some .localMode
  | 2 => some .safe
  | _ => none

/-- An attention mode code (section 9.8). -/
def modeOf : Nat → Option AttentionMode
  | 0 => some .level
  | 1 => some .pulse
  | _ => none

/-- A clear policy code (section 9.8). -/
def policyOf : Nat → Option ClearPolicy
  | 0 => some .orderClears
  | 1 => some .readClears
  | _ => none

/-- An order's event set; a set with any of bits 13–15 names nothing (section 9.8). -/
def eventSetOf (n : Nat) : Option EventSet :=
  if n < 8192 then some (BitVec.ofNat 13 n) else none

/-- All of a list's entries, if each is present. -/
def allPresent {α : Type} : List (Option α) → Option (List α)
  | [] => some []
  | none :: _ => none
  | some a :: rest => (allPresent rest).map (a :: ·)

/-- One move of the move encoding, at an offset (section 9.6); none where a target or curve is out of range. -/
def moveAt (p : List Byte) (i : Nat) : Option Move :=
  match targetOf (byteAt p i), curveField (byteAt p (i + 7)) with
  | some t, some c =>
    some { target := t, position := clampPosition (wordAt p (i + 1)), fade := timeField (wordAt p (i + 3))
           delay := timeField (wordAt p (i + 5)), curve := c }
  | _, _ => none

/-- The moves of a MOVE ADD payload in frame order; none where any is out of range (R27). -/
def movesOf (p : List Byte) : Option (List Move) :=
  allPresent ((List.range (p.length / 8)).map fun k => moveAt p (8 * k))

/-- One mute action at an offset; none where subject or state is out of range (R29). -/
def actionAt (p : List Byte) (i : Nat) : Option MuteAction :=
  match subjectOf (byteAt p i), muteStateOf (byteAt p (i + 1)) with
  | some u, some m => some { subject := u, state := m }
  | _, _ => none

/-- The actions of a MUTE ACTION ADD payload in frame order; none where any is out of range (R29). -/
def actionsOf (p : List Byte) : Option (List MuteAction) :=
  allPresent ((List.range (p.length / 2)).map fun k => actionAt p (2 * k))

/-- The touch flag of a strip word: bit 15 (R165). -/
def wordTouch (w : Word16) : Bool :=
  w.getLsbD 15

/-- The position of a strip word: bits 0–14, clamped as it is accepted (R165, R4). -/
def wordPosition (w : Word16) : Nat :=
  clampPosition (w.toNat % 32768)

/-! ### Writing -/

/-- A code or an index counted from 1. -/
def codeOf {n : Nat} (k : Fin n) : Byte :=
  nat8 (k.val + 1)

/-- A flag's byte. -/
def flagByte (b : Bool) : Byte :=
  if b then 1 else 0

/-- A time field that may be absent. -/
def timeBytes : Option Nat → List Byte
  | none => nat16 Config.absentTime
  | some n => nat16 n

/-- The code of a cue kind. -/
def CueKind.code : CueKind → Byte
  | .track => 0
  | .block => 1

/-- The code of a curve. -/
def Curve.code : Curve → Byte
  | .linear => 0
  | .slow => 1
  | .fast => 2
  | .s => 3

/-- The code of a mute state. -/
def MuteState.code : MuteState → Byte
  | .opened => 0
  | .mute => 1

/-- The code of a mute subject. -/
def MuteSubject.code : MuteSubject → Byte
  | .channel c => codeOf c
  | .group m => nat8 (m.val + 65)

/-- The code of a playback state. -/
def PlayState.code : PlayState → Byte
  | .standby => 0
  | .running => 1
  | .held => 2
  | .resolving _ => 3

/-- The code of a link state. -/
def LinkState.code : LinkState → Byte
  | .off => 0
  | .linked => 1
  | .degraded => 2
  | .lost => 3

/-- A level code as carried: OFF is −32768, a level its own value in two's complement (R7, R167). -/
def LevelCode.word : LevelCode → Word16
  | .off => 0x8000#16
  | .level v => BitVec.ofInt 16 v

/-- A move as answers carry it (section 9.6). -/
def moveBytes (m : Move) : List Byte :=
  [codeOf m.target] ++ nat16 m.position ++ timeBytes m.fade ++ timeBytes m.delay
    ++ [match m.curve with | none => nat8 Config.absentByte | some c => c.code]

/-- A mute action as answers carry it. -/
def actionBytes (a : MuteAction) : List Byte :=
  [a.subject.code, a.state.code]

/-- A motor word as carried: the leave code is 0xFFFF (R166). -/
def MotorWord.bytes : MotorWord → List Byte
  | .leave => wordBytes 0xFFFF#16
  | .drive p => nat16 p

/-- A motor frame's bytes (section 9.9). -/
def MotorFrame.bytes (m : MotorFrame) : List Byte :=
  let body := [m.scan, nat8 m.page.val] ++ m.words.toList.flatMap MotorWord.bytes
  motorLead :: body ++ wordBytes (crc16 body)

/-- A gain frame's bytes (section 9.9). -/
def GainFrame.bytes (g : GainFrame) : List Byte :=
  let body := g.counter :: g.codes.toList.flatMap fun c => wordBytes c.word
  gainLead :: body ++ wordBytes (crc16 body)

/-- An answer's bytes (section 9.6). -/
def LinkAnswer.bytes (a : LinkAnswer) : List Byte :=
  frameBytes a.kind ⟨a.address, a.tag, a.payload⟩

end Sys2Proof.Machine
end

