-- ==== Sys2Proof/Machine/Ops.lean ====
section
/-! DEFINITION. The named operations over the blocks' state that several commands share: lookups of the cue table,
the fade table, the maps of the output, ownership and effective positions, mute requests and ramps, the playback's
pointers, the firing of a cue and the start of a resolution. -/

namespace Sys2Proof.Machine

/-! ### Targets -/

/-- The target of a channel. -/
def channelTarget (c : Channel) : Target :=
  ⟨c.val, by omega⟩

/-- The target of a group. -/
def groupTarget (g : Group) : Target :=
  ⟨64 + g.val, by omega⟩

/-- The channel a target is; none for a group. -/
def targetChannel (t : Target) : Option Channel :=
  if h : t.val < 64 then some ⟨t.val, h⟩ else none

/-! ### The cue table (R22, R23) -/

/-- The stored record with a number. -/
def findCue (table : List CueRecord) (n : Nat) : Option CueRecord :=
  table.find? fun r => decide (r.number = n)

/-- A cue of this number is stored. -/
def isStored (table : List CueRecord) (n : Nat) : Bool :=
  (findCue table n).isSome

/-- Next after n: the stored cue with the lowest number greater than n; the table is in number order (R22). -/
def nextAfter (table : List CueRecord) (n : Nat) : Option Nat :=
  (table.find? fun r => decide (n < r.number)).map (·.number)

/-- Last before n: the stored cue with the highest number less than n (R22). -/
def lastBefore (table : List CueRecord) (n : Nat) : Option Nat :=
  ((table.filter fun r => decide (r.number < n)).getLast?).map (·.number)

/-- A record takes its number's place, replacing a record of the same number (R22, R31). -/
def insertCue (r : CueRecord) : List CueRecord → List CueRecord
  | [] => [r]
  | c :: rest =>
    if r.number < c.number then r :: c :: rest
    else if r.number = c.number then r :: rest
    else c :: insertCue r rest

/-- A record leaves the table and the gap closes (R22). -/
def removeCue (n : Nat) (table : List CueRecord) : List CueRecord :=
  table.filter fun r => decide (r.number ≠ n)

/-- The moves held by all stored records (R23). -/
def movesHeld (table : List CueRecord) : Nat :=
  (table.map (·.moves.length)).sum

/-- The moves a stored record of this number holds; 0 when none is stored. -/
def movesOfCue (table : List CueRecord) (n : Nat) : Nat :=
  match findCue table n with
  | some r => r.moves.length
  | none => 0

/-! ### The slot map and the lock map (R143–R145) -/

/-- A window covers its channels first to last (R143). -/
def Window.covers (w : Window) (c : Channel) : Bool :=
  decide (w.first ≤ c.val + 1) && decide (c.val + 1 ≤ w.last)

/-- The slot a window assigns a channel it covers (R143). -/
def Window.slot (w : Window) (c : Channel) : Nat :=
  w.base + (c.val + 1 - w.first)

/-- The window that maps a channel: the lowest-numbered enabled window that covers it (R144). -/
def mappingWindow (ws : Vector (Option Window) 8) (c : Channel) : Option Window :=
  ws.toList.findSome? fun o =>
    match o with
    | some w => if w.covers c then some w else none
    | none => none

/-- The slot map: a channel's slot, or none (R144). -/
def slotOf (ws : Vector (Option Window) 8) (c : Channel) : Option Nat :=
  (mappingWindow ws c).map (·.slot c)

/-- The lock map: a mapped channel has the lock of the window that maps it (R145). -/
def channelLocked (ws : Vector (Option Window) 8) (c : Channel) : Bool :=
  match mappingWindow ws c with
  | some w => w.lock
  | none => false

/-- A target is a locked channel; groups are never locked (R145). -/
def targetLocked (ws : Vector (Option Window) 8) (t : Target) : Bool :=
  match targetChannel t with
  | some c => channelLocked ws c
  | none => false

/-! ### The fade table (R65–R69) -/

/-- A RUNNING entry. -/
def FadeEntry.isRunning (e : FadeEntry) : Bool :=
  match e.phase with
  | .running _ _ => true
  | .waiting _ => false

/-- The curve value of a RUNNING entry (R88). -/
def FadeEntry.value? (e : FadeEntry) : Option Nat :=
  match e.phase with
  | .running start elapsed => some (blend start e.goal (shape e.curve (fraction elapsed e.duration)))
  | .waiting _ => none

/-- The automation position of a target (R67): its RUNNING entry's curve value, or else its rest position. -/
def FadeEngine.automation (u : FadeEngine) (t : Target) : Nat :=
  (u.entries.findSome? fun e => if e.target = t then e.value? else none).getD u.rest[t]

/-- Removes the target's WAITING entry. -/
def FadeEngine.dropWaiting (u : FadeEngine) (t : Target) : FadeEngine :=
  { u with entries := u.entries.filter fun e => !(decide (e.target = t) && !e.isRunning) }

/-- Removes the target's RUNNING entry. -/
def FadeEngine.dropRunning (u : FadeEngine) (t : Target) : FadeEngine :=
  { u with entries := u.entries.filter fun e => !(decide (e.target = t) && e.isRunning) }

/-- Removes every entry of the target. -/
def FadeEngine.dropAll (u : FadeEngine) (t : Target) : FadeEngine :=
  { u with entries := u.entries.filter fun e => decide (e.target ≠ t) }

/-- A new entry joins the end of the table (R69). -/
def FadeEngine.append (u : FadeEngine) (e : FadeEntry) : FadeEngine :=
  { u with entries := u.entries ++ [e] }

/-- Sets a target's rest position (R65). -/
def FadeEngine.setRest (u : FadeEngine) (t : Target) (p : Nat) : FadeEngine :=
  { u with rest := u.rest.set t p }

/-- An entry leaves by completion: CUE_DONE is due and the last completed cue recorded when its owner is not 0 and
no other entry of that owner remains (R81). -/
def recordCompletion (owner : Nat) (s : State) : State :=
  if owner ≠ 0 ∧ s.fade.entries.all (fun e => decide (e.owner ≠ owner)) then
    latch .cueDone { s with fade := { s.fade with lastCompleted := owner } }
  else s

/-! ### Ownership and effective positions (R103, R104, R117, R120) -/

/-- The value of a park ramp (R120). -/
def rampValue (position start duration elapsed : Nat) : Nat :=
  if elapsed < duration then blend start position (fraction elapsed duration) else position

/-- The effective position of a target (R103). -/
def effective (s : State) (t : Target) : Nat :=
  match s.own.owners[t] with
  | .auto => s.fade.automation t
  | .operator strip => s.own.strips[strip].lastPosition
  | .glide release time elapsed => blend release (s.fade.automation t) (fraction elapsed time)
  | .parked position start duration elapsed => rampValue position start duration elapsed

/-- Sets a target's ownership record. -/
def Ownership.setOwner (u : Ownership) (t : Target) (o : Owner) : Ownership :=
  { u with owners := u.owners.set t o }

/-- Sets a strip record. -/
def Ownership.setStrip (u : Ownership) (i : Strip) (r : StripRecord) : Ownership :=
  { u with strips := u.strips.set i r }

/-- The record a target has after a let-go from a position: GLIDE, or AUTO with a glide time of 0 (R104, R117). -/
def Ownership.released (u : Ownership) (release : Nat) : Owner :=
  if u.glideTime = 0 then .auto else .glide release u.glideTime 0

/-- A let-go of a target from a release position (R104). -/
def Ownership.letGo (u : Ownership) (t : Target) (release : Nat) : Ownership :=
  u.setOwner t (u.released release)

/-- The state of a strip whose TOUCHED hold ends without its touch falling: BLOCKED, latched target dropped and
stuck timer stopped (R114, R119). -/
def Ownership.blockStrip (u : Ownership) (i : Strip) : Ownership :=
  u.setStrip i { u.strips[i] with state := .blocked }

/-- The attenuation of a ramp record (R135). -/
def MuteRamp.attenuation : MuteRamp → Nat
  | .opened => 0
  | .muting start rate _ elapsed => min 1000 (start + 1000 * elapsed / rate)
  | .muted => 1000
  | .opening start rate elapsed => start - 1000 * elapsed / rate

/-- The level code of a channel at this instant (R11, R17). -/
def channelCode (s : State) (c : Channel) : LevelCode :=
  combine (effective s (channelTarget c)) (s.mute.groups[c].map fun g => effective s (groupTarget g))
    s.mute.ramps[c].attenuation

/-! ### Mute requests and ramps (R134–R138) -/

/-- Show-stop counts for a channel: it is active and the channel is not exempt (R134, R136). -/
def MuteUnit.stopCounts (u : MuteUnit) (c : Channel) : Bool :=
  u.stopActive && !u.exempt[c]

/-- The state is MUTE. -/
def MuteState.isMute : MuteState → Bool
  | .mute => true
  | .opened => false

/-- A mute group in the channel's set is MUTE (R134). -/
def MuteUnit.groupMuted (u : MuteUnit) (c : Channel) : Bool :=
  (List.finRange 8).any fun m => u.muteSets[c].getLsbD m.val && u.groupStates[m].isMute

/-- The channel's mute request (R134). -/
def MuteUnit.request (u : MuteUnit) (c : Channel) : Bool :=
  u.flags[c] || u.groupMuted c || u.stopCounts c

/-- A muting ramp from an attenuation; MUTED at once from 1000 or at rate 0 (R136, R137, R139). -/
def startMuting (start rate : Nat) (stopRate : Bool) : MuteRamp :=
  if 1000 ≤ start ∨ rate = 0 then .muted else .muting start rate stopRate 0

/-- An opening ramp from an attenuation; OPEN at once from 0 or at rate 0 (R138, R139). -/
def startOpening (start rate : Nat) : MuteRamp :=
  if start = 0 ∨ rate = 0 then .opened else .opening start rate 0

/-- A channel's ramp after its request has been evaluated again (R134, R136–R138): from the request and whether
show-stop counts, before and after the event. -/
def evaluatedRamp (times : MuteTimes) (request counts request' counts' : Bool) (ramp : MuteRamp) : MuteRamp :=
  match request, request' with
  | false, true =>
    if counts' then startMuting ramp.attenuation times.stop true else startMuting ramp.attenuation times.mute false
  | true, false => startOpening ramp.attenuation times.unmute
  | true, true =>
    match ramp with
    | .muting _ _ false _ =>
      if counts' && !counts then startMuting ramp.attenuation times.stop true else ramp
    | .muting _ _ true _ | .opened | .muted | .opening _ _ _ => ramp
  | false, false => ramp

/-- A channel's ramp after one event that changed `before` into `after`. -/
def rampAfter (before after : MuteUnit) (c : Channel) : MuteRamp :=
  evaluatedRamp after.times (before.request c) (before.stopCounts c) (after.request c) (after.stopCounts c)
    after.ramps[c]

/-- Evaluates every channel's request again after one event that changed `before` into `after`, once (R129, R134). -/
def reevaluate (before after : MuteUnit) : MuteUnit :=
  { after with ramps := Vector.ofFn (rampAfter before after) }

/-- Sets one mute subject's state (R128). -/
def MuteUnit.setSubject (u : MuteUnit) (subject : MuteSubject) (state : MuteState) : MuteUnit :=
  match subject with
  | .group m => { u with groupStates := u.groupStates.set m state }
  | .channel c => { u with flags := u.flags.set c state.isMute }

/-- The state of one mute subject (R128). -/
def MuteUnit.subjectState (u : MuteUnit) : MuteSubject → MuteState
  | .group m => u.groupStates[m]
  | .channel c => if u.flags[c] then .mute else .opened

/-- The mute actions of one firing, applied together (R129). -/
def MuteUnit.applyActions (u : MuteUnit) (actions : List MuteAction) : MuteUnit :=
  reevaluate u (actions.foldl (fun v a => v.setSubject a.subject a.state) u)

/-! ### Playback pointers and state (R42–R45, R55) -/

/-- In STANDBY or RUNNING the playback state follows the fade table (R42). -/
def followTable (entries : List FadeEntry) (p : PlayState) : PlayState :=
  match p with
  | .standby | .running => if entries.isEmpty then .standby else .running
  | .held => .held
  | .resolving r => .resolving r

/-- The playback state after the fade table changed (R42, R69). -/
def settle (s : State) : State :=
  { s with play := { s.play with state := followTable s.fade.entries s.play.state } }

/-- Recomputes the standby: the next stored cue after the current cue, mark clear (R45). -/
def recomputeStandby (s : State) : State :=
  { s with play := { s.play with
      standby := (nextAfter s.cues.table s.play.current).map fun n => { number := n, explicit := false } } }

/-- The standby after a commit or a deletion: an explicit standby that is still stored stays (R45). -/
def standbyAfterEdit (s : State) : State :=
  match s.play.standby with
  | some ⟨n, true⟩ => if isStored s.cues.table n then s else recomputeStandby s
  | some ⟨_, false⟩ | none => recomputeStandby s

/-- The standby cue's number, 0 when absent (R45). -/
def standbyNumber (s : State) : Nat :=
  match s.play.standby with
  | some c => c.number
  | none => 0

/-- The record of the standby cue (log 16). -/
def standbyRecord (s : State) : Option CueRecord :=
  s.play.standby.bind fun c => findCue s.cues.table c.number

/-- A hold taken at this instant: by HOLD (R55), or by show-stop becoming active (R61). -/
def actHold (s : State) : State :=
  match s.play.state with
  | .standby | .running => { s with play := { s.play with state := .held, freeze := true } }
  | .held => s
  | .resolving r => { s with play := { s.play with state := .resolving { r with holdRequested := true } } }

/-- A resolution starts: the follow timer stops, the state becomes RESOLVING, the freeze stays (R57, R90). -/
def startResolution (goal gotoTime : Nat) (holdRequested : Bool) (s : State) : State :=
  { s with play := { s.play with
      follow := none
      state := .resolving { goal := goal, gotoTime := gotoTime, start := s.clock, holdRequested := holdRequested } } }

/-! ### Firing (R49, R71–R76) -/

/-- A move as handed to the Fade Engine, nothing absent (R20); times in tenths of a second. -/
structure FiredMove where
  target   : Target
  position : Nat
  fade     : Nat
  delay    : Nat
  curve    : Curve
deriving DecidableEq, Repr

/-- Absent fields are filled from the cue's defaults, an absent delay is 0 (R20). -/
def CueRecord.fill (r : CueRecord) (m : Move) : FiredMove :=
  { target := m.target, position := m.position, fade := m.fade.getD r.defaultFade, delay := m.delay.getD 0
    curve := m.curve.getD r.defaultCurve }

/-- A move that passed the lock check: the target's WAITING entry is discarded (R73), then the move is applied as
a delayed move (R74), a timed move (R75) or a snap (R76). -/
def FadeEngine.applyMove (u : FadeEngine) (owner : Nat) (m : FiredMove) : FadeEngine :=
  let v := u.dropWaiting m.target
  if 0 < m.delay then
    v.append { target := m.target, owner := owner, goal := m.position, duration := m.fade * 100, curve := m.curve
               phase := .waiting (m.delay * 100) }
  else if 0 < m.fade then
    (v.dropRunning m.target).append
      { target := m.target, owner := owner, goal := m.position, duration := m.fade * 100, curve := m.curve
        phase := .running (v.automation m.target) 0 }
  else (v.dropRunning m.target).setRest m.target m.position

/-- One move of a firing: skipped with LOCK_SKIP for a locked channel (R72), else applied. -/
def fireMove (owner : Nat) (s : State) (m : FiredMove) : State :=
  if targetLocked s.out.windows m.target then latch .lockSkip s
  else { s with fade := s.fade.applyMove owner m }

/-- The moves of a firing, in the record's order (R71). -/
def fireMoves (r : CueRecord) (s : State) : State :=
  r.moves.foldl (fun s m => fireMove r.number s (r.fill m)) s

/-- A record is fired: moves, mute actions, pointers, follow timer, state (R49, steps 1 to 5). -/
def fire (r : CueRecord) (s : State) : State :=
  let moved := fireMoves r s
  let muted := { moved with mute := moved.mute.applyActions r.actions }
  let pointed := { muted with play := { muted.play with
    current := r.number, follow := r.followWait.map (· * 100) } }
  settle (recomputeStandby pointed)

/-- The lockout runs: less than the lockout time has passed since the GO it guards (R51). -/
def Playback.lockoutRunning (p : Playback) : Bool :=
  match p.lockout with
  | some elapsed => decide (elapsed < p.config.lockoutTime)
  | none => false

/-- A GO from an order or the line is taken: the standby record is fired and the lockout restarts (R49, R51). -/
def takeGo (r : CueRecord) (s : State) : State :=
  let fired := fire r s
  { fired with play := { fired.play with lockout := some 0 } }

/-! ### Show-stop (R131–R133, R61) -/

/-- A change of the STOP line or the stop order flag: requests are evaluated again, and the playback is told when
show-stop becomes active (R133). -/
def changeStop (change : MuteUnit → MuteUnit) (s : State) : State :=
  let after := { s with mute := reevaluate s.mute (change s.mute) }
  if !s.mute.stopActive && after.mute.stopActive then actHold after else after

end Sys2Proof.Machine
end

