-- ==== Sys2Proof/Machine/Orders.lean ====
section
/-! DEFINITION. Taking an order from the show link: address matching (R158), the checks every order shares (R160),
masked matches (R161), the answer (R162, R163), and what a frame meets in the Link Port's states (R157, R163). -/

namespace Sys2Proof.Machine

/-- The refusal reasons (section 9.8). -/
inductive Reason where
  | busy
  | held
  | endOfCues
  | wrongCue
  | lockout
  | noCue
  | poolFull
  | tableFull
  | moveLimit
  | muteLimit
  | editOpen
  | noEdit
  | range
  | duplicate
  | slotClash
  | notParked
  | localMode
  | notLinked
  | unknown
  | length
deriving DecidableEq, Repr

/-- The result codes of refusals (section 9.8). -/
def Reason.code : Reason → Byte
  | .busy => 1
  | .held => 2
  | .endOfCues => 3
  | .wrongCue => 4
  | .lockout => 5
  | .noCue => 6
  | .poolFull => 7
  | .tableFull => 8
  | .moveLimit => 9
  | .muteLimit => 10
  | .editOpen => 11
  | .noEdit => 12
  | .range => 13
  | .duplicate => 14
  | .slotClash => 15
  | .notParked => 16
  | .localMode => 17
  | .notLinked => 18
  | .unknown => 19
  | .length => 20

/-- The result code of a taken order (section 9.8). -/
def doneCode : Byte := 0

/-- What the checks of an order and its block give: taken, with the answer's data and the state after, or refused
with a reason and the data that follows it (R162). -/
inductive OrderResult where
  | done (data : List Byte) (s : State)
  | refuse (reason : Reason) (data : List Byte)
deriving DecidableEq, Repr

/-- What section 9.7 and the rules say of a kind: its payload lengths, whether LOCAL mode refuses it (R174), whether
a masked match ignores it (R161), and what it does. -/
structure OrderSpec where
  lengthOk      : Nat → Bool
  refusedLocal  : Bool
  maskedIgnored : Bool
  body          : List Byte → State → OrderResult

/-- How a frame's address matches a unit (R158). -/
inductive AddressMatch where
  | none
  | exact
  | masked
deriving DecidableEq, Repr

/-- Address matching: unit address, address mask, the frame's address byte (R158). -/
def matchAddress (unit mask : Address) (address : Byte) : AddressMatch :=
  if address.getLsbD 7 || address.getLsbD 6 || address.getLsbD 5 then .none
  else if address.setWidth 5 = unit then .exact
  else if (address.setWidth 5 ^^^ unit) &&& ~~~mask = 0 then .masked
  else .none

/-- A refused GO with no standby also latches END_REACHED (R48). -/
def latchRefusal (reason : Reason) (s : State) : State :=
  if reason = .endOfCues then latch .endReached s else s

/-- The checks of R160, steps 2 to 4. -/
def judgeOrder (o : OrderSpec) (payload : List Byte) (s : State) : OrderResult :=
  if o.lengthOk payload.length = false then .refuse .length []
  else if o.refusedLocal && s.sup.localMode then .refuse .localMode []
  else o.body payload s

/-- The answer's payload is fixed and pending (R162, R163). -/
def pendAnswer (kind tag result : Byte) (data : List Byte) (s : State) : State :=
  { s with link := { s.link with
      port := .answerPending
        { address := 0x80#8 ||| s.link.address.setWidth 8, kind := kind, tag := tag, payload := result :: data } } }

/-- An exactly matched order: carried out and answered (R160, R162). -/
def takeExact (kind : Byte) (o : OrderSpec) (f : OrderFrame) (s : State) : State :=
  match judgeOrder o f.payload s with
  | .done data s' => pendAnswer kind f.tag doneCode data s'
  | .refuse reason data => pendAnswer kind f.tag reason.code data (latchRefusal reason s)

/-- An order on a masked match: carried out silently; ignored for HEARTBEAT and the reading orders; a refusal
latches GROUP_REFUSED (R161). -/
def takeMasked (o : OrderSpec) (f : OrderFrame) (s : State) : State :=
  if o.maskedIgnored then s else
  match judgeOrder o f.payload s with
  | .done _ s' => s'
  | .refuse reason _ => latch .groupRefused (latchRefusal reason s)

/-- The Link Port returns to HUNT. -/
def portHunt (s : State) : State :=
  { s with link := { s.link with port := .hunt } }

/-- The collision count advances by 1 and stays at 65535 (R164). -/
def advanceCollisions (s : State) : State :=
  { s with link := { s.link with collisions := min Config.maxCollisions (s.link.collisions + 1) } }

/-- A frame is abandoned or fails its check: dropped, FRAME_ERROR latched, the receiver in HUNT (R157). -/
def dropFrame (s : State) : State :=
  latch .frameError (portHunt s)

/-- Another party begins to speak in ANSWER PENDING: the answer is not sent (R163); the same latches follow a
collision in SENDING (R164). -/
def loseAnswer (s : State) : State :=
  latch .frameError (advanceCollisions (portHunt s))

/-- A frame with a good check that has been received whole: a length byte too large has abandoned it (R157), a
frame that matches no address is ignored, any other is taken (R158). -/
def takeFrame (kind : Byte) (o : OrderSpec) (f : OrderFrame) (s : State) : State :=
  if maxPayload f.address < f.payload.length then dropFrame s else
  match matchAddress s.link.address s.link.mask f.address with
  | .none => portHunt s
  | .exact => takeExact kind o f (portHunt s)
  | .masked => takeMasked o f (portHunt s)

/-- What whole frames meet in the Link Port's states: taken in HUNT and RECEIVE; in ANSWER PENDING their first byte
has cost the answer (R163); in SENDING the receiver takes no frame (R163). -/
def arrive (take : State → State) (s : State) : State :=
  match s.link.port with
  | .sending _ => s
  | .answerPending _ => take (loseAnswer s)
  | .hunt | .receive _ => take s

/-- Every event but the two of a full reset: not taken while a full reset lasts (R2), and STATE_CHANGED latched when
it changes the present-state set (R177). -/
def event (act : State → State) (s : State) : Host.Outcome State Fault Refusal :=
  .next (if s.inReset then s else noteChanges s (act s))

/-- The meaning shared by all orders: the frame of the kind arrives (R157–R163). -/
def order (kind : Byte) (o : OrderSpec) (f : OrderFrame) (s : State) : Host.Outcome State Fault Refusal :=
  event (arrive (takeFrame kind o f)) s

/-- A kind of one fixed length that LOCAL mode refuses and a masked match carries out. -/
def showOrder (length : Nat) (body : List Byte → State → OrderResult) : OrderSpec :=
  { lengthOk := fun n => n == length, refusedLocal := true, maskedIgnored := false, body := body }

/-- A kind of one fixed length that LOCAL mode accepts and a masked match carries out (R174). -/
def openOrder (length : Nat) (body : List Byte → State → OrderResult) : OrderSpec :=
  { lengthOk := fun n => n == length, refusedLocal := false, maskedIgnored := false, body := body }

/-- A reading order: accepted in LOCAL mode, ignored on a masked match (R161, R174). -/
def readOrder (length : Nat) (body : List Byte → State → OrderResult) : OrderSpec :=
  { lengthOk := fun n => n == length, refusedLocal := false, maskedIgnored := true, body := body }

end Sys2Proof.Machine
end

