-- ==== Sys2Proof/Machine/Cues.lean ====
section
/-! DEFINITION. The recording, deleting and reading orders of the Cue Store (chapter 02). -/

namespace Sys2Proof.Machine

/-- Opens, changes or closes the edit buffer (R24). -/
def setEdit (edit : Option CueRecord) (s : State) : State :=
  { s with cues := { s.cues with edit := edit } }

/-- RECORD BEGIN: number, kind, default fade, default curve, follow wait (R26). -/
def recordBeginBody (p : List Byte) (s : State) : OrderResult :=
  if s.cues.edit.isSome then .refuse .editOpen []
  else if wordAt p 0 = 0 ∨ Config.maxCue < wordAt p 0 then .refuse .range []
  else match kindOf (byteAt p 2), curveOf (byteAt p 5) with
    | some kind, some curve =>
      let draft : CueRecord :=
        { number := wordAt p 0, kind := kind, defaultFade := clampTenths (wordAt p 3), defaultCurve := curve
          followWait := timeField (wordAt p 6), moves := [], actions := [] }
      .done [] (setEdit (some draft) s)
    | _, _ => .refuse .range []

/-- A move replaces its target's move in place, or enters at its place in ascending target order (R28). -/
def insertMove (m : Move) : List Move → List Move
  | [] => [m]
  | x :: rest =>
    if m.target < x.target then m :: x :: rest
    else if m.target = x.target then m :: rest
    else x :: insertMove m rest

/-- The moves of a frame applied in frame order (R28). -/
def applyMoves (moves : List Move) (into : List Move) : List Move :=
  moves.foldl (fun acc m => insertMove m acc) into

/-- The place of a mute subject in the order of R21: mute groups first, then channels. -/
def MuteSubject.place : MuteSubject → Nat
  | .group m => m.val
  | .channel c => 8 + c.val

/-- An action replaces its subject's state in place, or enters at its place in the order of R21 (R29). -/
def insertAction (a : MuteAction) : List MuteAction → List MuteAction
  | [] => [a]
  | x :: rest =>
    if a.subject.place < x.subject.place then a :: x :: rest
    else if a.subject.place = x.subject.place then a :: rest
    else x :: insertAction a rest

/-- The actions of a frame applied in frame order (R29). -/
def applyDraftActions (actions : List MuteAction) (into : List MuteAction) : List MuteAction :=
  actions.foldl (fun acc a => insertAction a acc) into

/-- MOVE ADD: the whole frame is checked before any move is applied (R27, R28). -/
def moveAddBody (p : List Byte) (s : State) : OrderResult :=
  match s.cues.edit with
  | none => .refuse .noEdit []
  | some draft =>
    match movesOf p with
    | none => .refuse .range []
    | some moves =>
      if Config.draftMoves < (applyMoves moves draft.moves).length then .refuse .moveLimit []
      else .done [] (setEdit (some { draft with moves := applyMoves moves draft.moves }) s)

/-- MUTE ACTION ADD: the whole frame is checked before any action is applied (R29). -/
def muteActionAddBody (p : List Byte) (s : State) : OrderResult :=
  match s.cues.edit with
  | none => .refuse .noEdit []
  | some draft =>
    match actionsOf p with
    | none => .refuse .range []
    | some actions =>
      if Config.draftActions < (applyDraftActions actions draft.actions).length then .refuse .muteLimit []
      else .done [] (setEdit (some { draft with actions := applyDraftActions actions draft.actions }) s)

/-- The capacity checks of a commit: a replacement needs its net growth, an insertion a table place and all its
moves (R30). -/
def capacityRefusal (cues : CueStore) (number moves : Nat) : Option Reason :=
  if isStored cues.table number then
    if cues.poolFree + movesOfCue cues.table number < moves then some .poolFull else none
  else if Config.tableCapacity ≤ cues.table.length then some .tableFull
  else if cues.poolFree < moves then some .poolFull
  else none

/-- A record is committed: the old record's moves go back, the new record's are taken, and it takes its place
(R31, R23). -/
def CueStore.commit (cues : CueStore) (r : CueRecord) : CueStore :=
  { cues with table := insertCue r cues.table
              poolFree := cues.poolFree + movesOfCue cues.table r.number - r.moves.length }

/-- A record is deleted and its moves go back (R35, R23). -/
def CueStore.delete (cues : CueStore) (n : Nat) : CueStore :=
  { cues with table := removeCue n cues.table, poolFree := cues.poolFree + movesOfCue cues.table n }

/-- The counts that answers to commits and deletions carry (R31, R35). -/
def countBytes (cues : CueStore) : List Byte :=
  nat16 cues.table.length ++ nat16 cues.poolFree

/-- RECORD END (R30, R31). -/
def recordEndBody (_p : List Byte) (s : State) : OrderResult :=
  match s.cues.edit with
  | none => .refuse .noEdit []
  | some draft =>
    if s.play.state.isResolving then .refuse .busy []
    else match capacityRefusal s.cues draft.number draft.moves.length with
      | some reason => .refuse reason []
      | none =>
        .done (countBytes (s.cues.commit draft))
          (standbyAfterEdit { s with cues := { s.cues.commit draft with edit := none } })

/-- RECORD ABANDON (R32). -/
def recordAbandonBody (_p : List Byte) (s : State) : OrderResult :=
  match s.cues.edit with
  | none => .refuse .noEdit []
  | some _ => .done [] (setEdit none s)

/-- A move of a live recording: the effective position, nothing else given (R34). -/
def liveMove (s : State) (t : Target) : Move :=
  { target := t, position := effective s t, fade := none, delay := none, curve := none }

/-- The record of RECORD LIVE: every target but the locked channels, and the eight mute groups (R34). -/
def liveRecord (number : Nat) (kind : CueKind) (s : State) : CueRecord :=
  { number := number, kind := kind, defaultFade := 30, defaultCurve := .linear, followWait := none
    moves := ((List.finRange 80).filter fun t => !targetLocked s.out.windows t).map (liveMove s)
    actions := (List.finRange 8).map fun m => { subject := .group m, state := s.mute.groupStates[m] } }

/-- RECORD LIVE: number and kind (R33, R34). -/
def recordLiveBody (p : List Byte) (s : State) : OrderResult :=
  if s.cues.edit.isSome then .refuse .editOpen []
  else if s.play.state.isResolving then .refuse .busy []
  else match kindOf (byteAt p 2) with
    | none => .refuse .range []
    | some kind =>
      if wordAt p 0 = 0 ∨ Config.maxCue < wordAt p 0 then .refuse .range []
      else match capacityRefusal s.cues (wordAt p 0) (liveRecord (wordAt p 0) kind s).moves.length with
        | some reason => .refuse reason []
        | none =>
          let cues := s.cues.commit (liveRecord (wordAt p 0) kind s)
          .done (countBytes cues) (standbyAfterEdit { s with cues := cues })

/-- CUE DELETE (R35). -/
def cueDeleteBody (p : List Byte) (s : State) : OrderResult :=
  if s.play.state.isResolving then .refuse .busy []
  else if isStored s.cues.table (wordAt p 0) = false then .refuse .noCue []
  else
    let cues := s.cues.delete (wordAt p 0)
    .done (countBytes cues) (standbyAfterEdit { s with cues := cues })

/-- The record a reading order names: a stored record, or the edit buffer for number 0 (R36). -/
def recordToRead (cues : CueStore) (n : Nat) : Except Reason CueRecord :=
  if n = 0 then
    match cues.edit with
    | some draft => .ok draft
    | none => .error .noEdit
  else match findCue cues.table n with
    | some r => .ok r
    | none => .error .noCue

/-- The answer data of CUE READ (R36, section 9.7). -/
def cueReadBytes (r : CueRecord) : List Byte :=
  nat16 r.number ++ [r.kind.code] ++ nat16 r.defaultFade ++ [r.defaultCurve.code] ++ timeBytes r.followWait
    ++ [nat8 r.moves.length, nat8 r.actions.length] ++ r.actions.flatMap actionBytes

/-- CUE READ (R36). -/
def cueReadBody (p : List Byte) (s : State) : OrderResult :=
  match recordToRead s.cues (wordAt p 0) with
  | .error reason => .refuse reason []
  | .ok r => .done (cueReadBytes r) s

/-- The answer data of MOVE READ: total, returned, up to 6 moves from an index (R37). -/
def moveReadBytes (moves : List Move) (first : Nat) : List Byte :=
  let returned := (moves.drop first).take 6
  [nat8 moves.length, nat8 returned.length] ++ returned.flatMap moveBytes

/-- MOVE READ (R37). -/
def moveReadBody (p : List Byte) (s : State) : OrderResult :=
  match recordToRead s.cues (wordAt p 0) with
  | .error reason => .refuse reason []
  | .ok r => .done (moveReadBytes r.moves (byteAt p 2)) s

/-- The number in the edit buffer, 0 if closed (R38). -/
def draftNumber (cues : CueStore) : Nat :=
  match cues.edit with
  | some draft => draft.number
  | none => 0

/-- TABLE INFO (R38). -/
def tableInfoBody (_p : List Byte) (s : State) : OrderResult :=
  .done (countBytes s.cues ++ nat16 s.play.current ++ nat16 (standbyNumber s) ++ [s.play.state.code]
    ++ nat16 s.fade.lastCompleted ++ nat16 (draftNumber s.cues)) s

/-- RECORD BEGIN (0x20). -/
def recordBeginSpec : OrderSpec := showOrder 8 recordBeginBody
/-- MOVE ADD (0x21): a multiple of 8 from 8 to 48 (R160). -/
def moveAddSpec : OrderSpec :=
  { showOrder 0 moveAddBody with lengthOk := fun n => n % 8 == 0 && decide (8 ≤ n) && decide (n ≤ 48) }
/-- MUTE ACTION ADD (0x22): an even number from 2 to 16 (R160). -/
def muteActionAddSpec : OrderSpec :=
  { showOrder 0 muteActionAddBody with lengthOk := fun n => n % 2 == 0 && decide (2 ≤ n) && decide (n ≤ 16) }
/-- RECORD END (0x23). -/
def recordEndSpec : OrderSpec := showOrder 0 recordEndBody
/-- RECORD ABANDON (0x24). -/
def recordAbandonSpec : OrderSpec := showOrder 0 recordAbandonBody
/-- RECORD LIVE (0x25). -/
def recordLiveSpec : OrderSpec := showOrder 3 recordLiveBody
/-- CUE DELETE (0x26). -/
def cueDeleteSpec : OrderSpec := showOrder 2 cueDeleteBody
/-- CUE READ (0x27). -/
def cueReadSpec : OrderSpec := readOrder 2 cueReadBody
/-- MOVE READ (0x28). -/
def moveReadSpec : OrderSpec := readOrder 3 moveReadBody
/-- TABLE INFO (0x29). -/
def tableInfoSpec : OrderSpec := readOrder 0 tableInfoBody

/-- RECORD BEGIN (R26). -/
def execRecordBegin (f : OrderFrame) (s : State) : Host.Outcome State Fault Refusal := order 0x20 recordBeginSpec f s
/-- MOVE ADD (R27, R28). -/
def execMoveAdd (f : OrderFrame) (s : State) : Host.Outcome State Fault Refusal := order 0x21 moveAddSpec f s
/-- MUTE ACTION ADD (R29). -/
def execMuteActionAdd (f : OrderFrame) (s : State) : Host.Outcome State Fault Refusal :=
  order 0x22 muteActionAddSpec f s
/-- RECORD END (R30, R31). -/
def execRecordEnd (f : OrderFrame) (s : State) : Host.Outcome State Fault Refusal := order 0x23 recordEndSpec f s
/-- RECORD ABANDON (R32). -/
def execRecordAbandon (f : OrderFrame) (s : State) : Host.Outcome State Fault Refusal :=
  order 0x24 recordAbandonSpec f s
/-- RECORD LIVE (R33, R34). -/
def execRecordLive (f : OrderFrame) (s : State) : Host.Outcome State Fault Refusal := order 0x25 recordLiveSpec f s
/-- CUE DELETE (R35). -/
def execCueDelete (f : OrderFrame) (s : State) : Host.Outcome State Fault Refusal := order 0x26 cueDeleteSpec f s
/-- CUE READ (R36). -/
def execCueRead (f : OrderFrame) (s : State) : Host.Outcome State Fault Refusal := order 0x27 cueReadSpec f s
/-- MOVE READ (R37). -/
def execMoveRead (f : OrderFrame) (s : State) : Host.Outcome State Fault Refusal := order 0x28 moveReadSpec f s
/-- TABLE INFO (R38). -/
def execTableInfo (f : OrderFrame) (s : State) : Host.Outcome State Fault Refusal := order 0x29 tableInfoSpec f s

end Sys2Proof.Machine
end

