-- ==== Sys2Proof/Machine/Fades.lean ====
section
/-! DEFINITION. The Fade Engine's order and expiries (chapter 04): BASE SET, the end of a delay, the end of a fade;
and the completion of a resolution (chapter 05). -/

namespace Sys2Proof.Machine

/-- BASE SET: the base position alone (R66). -/
def baseSetBody (p : List Byte) (s : State) : OrderResult :=
  match targetOf (byteAt p 0) with
  | none => .refuse .range []
  | some t =>
    let position := clampPosition (wordAt p 1)
    .done (nat16 position) { s with fade := { s.fade with base := s.fade.base.set t position } }

/-- The target's WAITING entry whose delay has run out (R70). -/
def FadeEngine.delayDue (u : FadeEngine) (t : Target) : Option FadeEntry :=
  u.entries.find? fun e => decide (e.target = t) && decide (e.phase = .waiting 0)

/-- The entry's timer has arrived: delay remaining 0, or elapsed at the duration (R70). -/
def FadeEntry.arrived (e : FadeEntry) : Bool :=
  match e.phase with
  | .waiting delay => delay == 0
  | .running _ elapsed => decide (e.duration ≤ elapsed)

/-- The target's RUNNING entry whose elapsed has reached its duration (R70). -/
def FadeEngine.completionDue (u : FadeEngine) (t : Target) : Option FadeEntry :=
  u.entries.find? fun e => decide (e.target = t) && e.isRunning && e.arrived

/-- The target's WAITING entry becomes RUNNING in its place, from the automation position, and takes the target's
RUNNING entry over (R78). -/
def FadeEngine.startWaiting (u : FadeEngine) (t : Target) : FadeEngine :=
  let start := u.automation t
  let v := u.dropRunning t
  { v with entries := v.entries.map fun e => if e.target = t then { e with phase := .running start 0 } else e }

/-- A delay expiry: a fade starts (R78), or a delayed snap sets the rest position and completes (R79). -/
def actDelayExpiry (t : Target) (s : State) : State :=
  match s.fade.delayDue t with
  | none => s
  | some e =>
    if 0 < e.duration then { s with fade := s.fade.startWaiting t }
    else settle (recordCompletion e.owner { s with fade := (s.fade.dropAll t).setRest t e.goal })

/-- A fade completion: the rest position is set and the entry removed (R80, R81). -/
def actFadeCompletion (t : Target) (s : State) : State :=
  match s.fade.completionDue t with
  | none => s
  | some e => settle (recordCompletion e.owner { s with fade := (s.fade.dropRunning t).setRest t e.goal })

/-! ### Track resolution (R92–R98) -/

/-- The stored cues from the goal downward, the goal included (R92). -/
def walkFrom (table : List CueRecord) (goal : Nat) : List CueRecord :=
  (table.filter fun r => decide (r.number ≤ goal)).reverse

/-- The resolved position of a target along the walk (R92). -/
def resolvedPosition (t : Target) (base : Nat) : List CueRecord → Nat
  | [] => base
  | r :: rest =>
    match r.moves.find? fun m => decide (m.target = t) with
    | some m => m.position
    | none => if r.kind = .block then base else resolvedPosition t base rest

/-- The resolved state of a mute subject along the walk (R93). -/
def resolvedMute (u : MuteSubject) : List CueRecord → MuteState
  | [] => .opened
  | r :: rest =>
    match r.actions.find? fun a => decide (a.subject = u) with
    | some a => a.state
    | none => if r.kind = .block then .opened else resolvedMute u rest

/-- An installation (R84). -/
def FadeEngine.install (u : FadeEngine) (t : Target) (position gotoTime : Nat) : FadeEngine :=
  let v := u.dropAll t
  if 0 < gotoTime then
    v.append { target := t, owner := 0, goal := position, duration := gotoTime * 100, curve := .linear
               phase := .running (u.automation t) 0 }
  else v.setRest t position

/-- The target receives an installation: it stands elsewhere, or the table holds an entry for it (R96). -/
def FadeEngine.needsInstall (u : FadeEngine) (t : Target) (position : Nat) : Bool :=
  decide (position ≠ u.automation t) || u.entries.any fun e => decide (e.target = t)

/-- One target at the completion: a locked channel is left alone (R95), any other installed if needed (R96). -/
def FadeEngine.resolveTarget (ws : Vector (Option Window) 8) (walk : List CueRecord) (gotoTime : Nat)
    (u : FadeEngine) (t : Target) : FadeEngine :=
  if targetLocked ws t then u
  else
    let position := resolvedPosition t u.base[t] walk
    if u.needsInstall t position then u.install t position gotoTime else u

/-- Every target at the completion, in ascending order (R96). -/
def FadeEngine.resolveAll (ws : Vector (Option Window) 8) (walk : List CueRecord) (gotoTime : Nat)
    (u : FadeEngine) : FadeEngine :=
  (List.finRange 80).foldl (FadeEngine.resolveTarget ws walk gotoTime) u

/-- The resolved states of all 72 mute subjects, applied together (R97, R129). -/
def MuteUnit.handOver (u : MuteUnit) (walk : List CueRecord) : MuteUnit :=
  reevaluate u { u with
    groupStates := Vector.ofFn fun m : MuteGroup => resolvedMute (.group m) walk
    flags := Vector.ofFn fun c : Channel => (resolvedMute (.channel c) walk).isMute }

/-- The playback takes the completion: HELD with the freeze applied if a hold was requested, else the freeze
released and the state by the fade table (R60, steps 3 and 4). -/
def leaveResolving (holdRequested : Bool) (s : State) : State :=
  if holdRequested then { s with play := { s.play with state := .held, freeze := true } }
  else settle { s with play := { s.play with state := .running, freeze := false } }

/-- A resolution's completion, one change (R60, R94, R98). -/
def completeResolution (r : Resolution) (s : State) : State :=
  let walk := walkFrom s.cues.table r.goal
  let installed := { s with fade := s.fade.resolveAll s.out.windows walk r.gotoTime, mute := s.mute.handOver walk }
  let latched := latch .resolveDone installed
  leaveResolving r.holdRequested (recomputeStandby { latched with play := { latched.play with current := r.goal } })

/-- RESOLUTION_COMPLETION: the resolution in flight when it is taken completes; with none in flight there is none to
complete (log 5). DESIGN CHOICE (log 29): the command names no record, so one that the queue holds from before a SAFE goto
replaced the record (R100, R173) completes the new one. The idle step queues one event at a time and so never leaves such
a command behind the replacement. -/
def actResolutionCompletion (s : State) : State :=
  match s.play.state with
  | .resolving r => completeResolution r s
  | .standby | .running | .held => s

/-- BASE SET (0x30). -/
def baseSetSpec : OrderSpec := showOrder 3 baseSetBody

/-- BASE SET (R66). -/
def execBaseSet (f : OrderFrame) (s : State) : Host.Outcome State Fault Refusal := order 0x30 baseSetSpec f s
/-- DELAY_EXPIRY (R78, R79). -/
def execDelayExpiry (t : Target) (s : State) : Host.Outcome State Fault Refusal := event (actDelayExpiry t) s
/-- FADE_COMPLETION (R80). -/
def execFadeCompletion (t : Target) (s : State) : Host.Outcome State Fault Refusal := event (actFadeCompletion t) s
/-- RESOLUTION_COMPLETION (R98). -/
def execResolutionCompletion (s : State) : Host.Outcome State Fault Refusal := event actResolutionCompletion s

end Sys2Proof.Machine
end

