-- ==== Sys2Proof/Machine/Mutes.lean ====
section
/-! DEFINITION. Groups, mutes and show-stop (chapter 07): memberships, MUTE SET, the exempt set, the stop orders and
the STOP line, MUTE CONFIG, the arrival of a mute ramp. -/

namespace Sys2Proof.Machine

/-- A list of groups has one twice. -/
def hasRepeat : List Group → Bool
  | [] => false
  | g :: rest => rest.contains g || hasRepeat rest

/-- The groups of a list in ascending order, each once (R126). -/
def ascendingGroups (groups : List Group) : List Group :=
  (List.finRange 16).filter fun g => groups.contains g

/-- The answer data of GROUP ASSIGN: count and three group bytes, 0 beyond the count (section 9.7). -/
def groupBytes (groups : List Group) : List Byte :=
  nat8 groups.length :: ((groups.map codeOf) ++ List.replicate (3 - groups.length) 0)

/-- GROUP ASSIGN: channel, count, three groups; those beyond the count are not read (R126). -/
def groupAssignBody (p : List Byte) (s : State) : OrderResult :=
  match channelOf (byteAt p 0) with
  | none => .refuse .range []
  | some c =>
    if 3 < byteAt p 1 then .refuse .range []
    else match allPresent ((List.range (byteAt p 1)).map fun k => groupOf (byteAt p (2 + k))) with
      | none => .refuse .range []
      | some groups =>
        if hasRepeat groups then .refuse .duplicate []
        else
          let stored := ascendingGroups groups
          .done (groupBytes stored) { s with mute := { s.mute with groups := s.mute.groups.set c stored } }

/-- MUTE SET: subject and state; the requests concerned are evaluated again (R128). -/
def muteSetBody (p : List Byte) (s : State) : OrderResult :=
  match subjectOf (byteAt p 0), muteStateOf (byteAt p 1) with
  | some subject, some state =>
    .done [state.code] { s with mute := reevaluate s.mute (s.mute.setSubject subject state) }
  | _, _ => .refuse .range []

/-- MUTE GROUP ASSIGN: channel and set, mute group Mn in bit n − 1 (R127). -/
def muteGroupAssignBody (p : List Byte) (s : State) : OrderResult :=
  match channelOf (byteAt p 0) with
  | none => .refuse .range []
  | some c =>
    let set := p.getD 1 0
    .done [set] { s with
      mute := reevaluate s.mute { s.mute with muteSets := s.mute.muteSets.set c set } }

/-- EXEMPT SET: channel and yes or no (R130). -/
def exemptSetBody (p : List Byte) (s : State) : OrderResult :=
  match channelOf (byteAt p 0), flagOf (byteAt p 1) with
  | some c, some member =>
    .done [flagByte member] { s with
      mute := reevaluate s.mute { s.mute with exempt := s.mute.exempt.set c member } }
  | _, _ => .refuse .range []

/-- A ramp time clamped to 200 ms (R141). -/
def clampRamp (n : Nat) : Nat :=
  min 200 n

/-- MUTE CONFIG: mute, unmute and stop times (R141). -/
def muteConfigBody (p : List Byte) (s : State) : OrderResult :=
  let times : MuteTimes :=
    { mute := clampRamp (wordAt p 0), unmute := clampRamp (wordAt p 2), stop := clampRamp (wordAt p 4) }
  .done (nat16 times.mute ++ nat16 times.unmute ++ nat16 times.stop) { s with mute := { s.mute with times := times } }

/-- The answer data of STOP SET and STOP RELEASE: the flag, and whether show-stop is active (R131). -/
def stopBytes (s : State) : List Byte :=
  [flagByte s.mute.stopFlag, flagByte s.mute.stopActive]

/-- The stop order flag is set or cleared (R131). -/
def setStopFlag (flag : Bool) (s : State) : State :=
  changeStop (fun u => { u with stopFlag := flag }) s

/-- The STOP line takes a level (R132). -/
def setStopLine (level : Level) (s : State) : State :=
  changeStop (fun u => { u with stopLine := level }) s

/-- STOP SET (R131). -/
def stopSetBody (_p : List Byte) (s : State) : OrderResult :=
  .done (stopBytes (setStopFlag true s)) (setStopFlag true s)

/-- STOP RELEASE (R131). -/
def stopReleaseBody (_p : List Byte) (s : State) : OrderResult :=
  .done (stopBytes (setStopFlag false s)) (setStopFlag false s)

/-- The ramp's formula has reached its end (R139). -/
def MuteRamp.arrived : MuteRamp → Bool
  | .muting start rate _ elapsed => decide (1000 - start ≤ 1000 * elapsed / rate)
  | .opening start rate elapsed => decide (start ≤ 1000 * elapsed / rate)
  | .opened | .muted => false

/-- The state a ramp arrives at (R139). -/
def MuteRamp.ended : MuteRamp → MuteRamp
  | .muting _ _ _ _ | .muted => .muted
  | .opening _ _ _ | .opened => .opened

/-- A ramp arrival (R139). -/
def actRampArrival (c : Channel) (s : State) : State :=
  if s.mute.ramps[c].arrived then
    { s with mute := { s.mute with ramps := s.mute.ramps.set c s.mute.ramps[c].ended } }
  else s

/-- GROUP ASSIGN (0x34). -/
def groupAssignSpec : OrderSpec := showOrder 5 groupAssignBody
/-- MUTE SET (0x35). -/
def muteSetSpec : OrderSpec := showOrder 2 muteSetBody
/-- MUTE GROUP ASSIGN (0x36). -/
def muteGroupAssignSpec : OrderSpec := showOrder 2 muteGroupAssignBody
/-- EXEMPT SET (0x37). -/
def exemptSetSpec : OrderSpec := showOrder 2 exemptSetBody
/-- MUTE CONFIG (0x38). -/
def muteConfigSpec : OrderSpec := showOrder 6 muteConfigBody
/-- STOP SET (0x16): taken in LOCAL mode too (R131). -/
def stopSetSpec : OrderSpec := openOrder 0 stopSetBody
/-- STOP RELEASE (0x17): taken in LOCAL mode too (R131). -/
def stopReleaseSpec : OrderSpec := openOrder 0 stopReleaseBody

/-- GROUP ASSIGN (R126). -/
def execGroupAssign (f : OrderFrame) (s : State) : Host.Outcome State Fault Refusal := order 0x34 groupAssignSpec f s
/-- MUTE SET (R128). -/
def execMuteSet (f : OrderFrame) (s : State) : Host.Outcome State Fault Refusal := order 0x35 muteSetSpec f s
/-- MUTE GROUP ASSIGN (R127). -/
def execMuteGroupAssign (f : OrderFrame) (s : State) : Host.Outcome State Fault Refusal :=
  order 0x36 muteGroupAssignSpec f s
/-- EXEMPT SET (R130). -/
def execExemptSet (f : OrderFrame) (s : State) : Host.Outcome State Fault Refusal := order 0x37 exemptSetSpec f s
/-- MUTE CONFIG (R141). -/
def execMuteConfig (f : OrderFrame) (s : State) : Host.Outcome State Fault Refusal := order 0x38 muteConfigSpec f s
/-- STOP SET (R131). -/
def execStopSet (f : OrderFrame) (s : State) : Host.Outcome State Fault Refusal := order 0x16 stopSetSpec f s
/-- STOP RELEASE (R131). -/
def execStopRelease (f : OrderFrame) (s : State) : Host.Outcome State Fault Refusal := order 0x17 stopReleaseSpec f s
/-- RAMP_ARRIVAL (R139). -/
def execRampArrival (c : Channel) (s : State) : Host.Outcome State Fault Refusal := event (actRampArrival c) s
/-- STOP_LINE_FALL (R132). -/
def execStopLineFall (s : State) : Host.Outcome State Fault Refusal := event (setStopLine .low) s
/-- STOP_LINE_RISE (R132). -/
def execStopLineRise (s : State) : Host.Outcome State Fault Refusal := event (setStopLine .high) s

end Sys2Proof.Machine
end

