-- ==== Sys2Proof/Machine/Output.lean ====
section
/-! DEFINITION. The output map and gain frames (chapter 08): windows, output configuration, output timer, frames. -/

namespace Sys2Proof.Machine

/-- The channels C1 to C64. -/
def allChannels : List Channel := List.finRange 64

/-- The channels the slot map gives a slot (R144). -/
def feeders (ws : Vector (Option Window) 8) (slot : Nat) : List Channel :=
  allChannels.filter fun c => decide (slotOf ws c = some slot)

/-- The lowest slot that the derived map gives to two channels (R146, R147). -/
def clashSlot (ws : Vector (Option Window) 8) : Option Nat :=
  (List.range 128).find? fun slot => decide (1 < (feeders ws slot).length)

/-- The number of channels mapped and the number locked (R146). -/
def mapBytes (ws : Vector (Option Window) 8) : List Byte :=
  [nat8 (allChannels.filter fun c => (slotOf ws c).isSome).length, nat8 (allChannels.filter (channelLocked ws)).length]

/-- The window fields of WINDOW SET in range (R146, step 2). -/
def windowFields (p : List Byte) : Option Window :=
  match channelOf (byteAt p 1), channelOf (byteAt p 2), flagOf (byteAt p 4) with
  | some _, some _, some lock =>
    if byteAt p 2 < byteAt p 1 ∨ 127 < byteAt p 3 ∨ 127 < byteAt p 3 + (byteAt p 2 - byteAt p 1) then none
    else some { first := byteAt p 1, last := byteAt p 2, base := byteAt p 3, lock := lock }
  | _, _, _ => none

/-- A change of the window table is taken unless its derived map gives a slot to two channels (R146, R147). -/
def changeWindows (ws : Vector (Option Window) 8) (s : State) : OrderResult :=
  match clashSlot ws with
  | some slot => .refuse .slotClash [nat8 slot]
  | none => .done (mapBytes ws) { s with out := { s.out with windows := ws } }

/-- WINDOW SET: window, first, last, base slot, lock (R146). -/
def windowSetBody (p : List Byte) (s : State) : OrderResult :=
  match windowOf (byteAt p 0), windowFields p with
  | some i, some w => changeWindows (s.out.windows.set i (some w)) s
  | _, _ => .refuse .range []

/-- WINDOW CLEAR (R147). -/
def windowClearBody (p : List Byte) (s : State) : OrderResult :=
  match windowOf (byteAt p 0) with
  | some i => changeWindows (s.out.windows.set i none) s
  | none => .refuse .range []

/-- An output period is one of 1, 2, 5 and 10 ms (R149). -/
def periodOk (n : Nat) : Bool :=
  n == 1 || n == 2 || n == 5 || n == 10

/-- The output timer after OUTPUT CONFIG (R150). -/
def configuredTimer (clock : ClockWord) (period : Nat) (enable : Bool) (next : Option ClockWord) : Option ClockWord :=
  if enable then
    match next with
    | some instant => some instant
    | none => some (clock + BitVec.ofNat 32 period)
  else none

/-- OUTPUT CONFIG: period and enable (R149, R150). -/
def outputConfigBody (p : List Byte) (s : State) : OrderResult :=
  match periodOk (byteAt p 0), flagOf (byteAt p 1) with
  | true, some enable =>
    .done [nat8 (byteAt p 0), flagByte enable] { s with out := { s.out with
      period := byteAt p 0, enabled := enable
      next := configuredTimer s.clock (byteAt p 0) enable s.out.next } }
  | _, _ => .refuse .range []

/-- The code a slot carries: that of the channel that feeds it, or OFF (R151). -/
def slotCode (s : State) (slot : Nat) : LevelCode :=
  match allChannels.find? fun c => decide (slotOf s.out.windows c = some slot) with
  | some c => channelCode s c
  | none => .off

/-- The gain frame of this instant (R151, R152). -/
def gainFrame (s : State) : GainFrame :=
  { counter := s.out.counter, codes := Vector.ofFn fun i : Fin 128 => slotCode s i.val }

/-- The output timer's next expiry is now (R150). -/
def outputDue (s : State) : Bool :=
  s.out.next == some s.clock

/-- An output period expiry: one gain frame, the counter advances, the next expiry is one period later (R150–R152). -/
def actOutputPeriodExpiry (s : State) : State :=
  if outputDue s then
    { s with out := { s.out with
        gainOut := some (gainFrame s), counter := s.out.counter + 1
        next := some (s.clock + BitVec.ofNat 32 s.out.period) } }
  else s

/-- WINDOW SET (0x50). -/
def windowSetSpec : OrderSpec := showOrder 5 windowSetBody
/-- WINDOW CLEAR (0x51). -/
def windowClearSpec : OrderSpec := showOrder 1 windowClearBody
/-- OUTPUT CONFIG (0x52). -/
def outputConfigSpec : OrderSpec := showOrder 2 outputConfigBody

/-- WINDOW SET (R146). -/
def execWindowSet (f : OrderFrame) (s : State) : Host.Outcome State Fault Refusal := order 0x50 windowSetSpec f s
/-- WINDOW CLEAR (R147). -/
def execWindowClear (f : OrderFrame) (s : State) : Host.Outcome State Fault Refusal := order 0x51 windowClearSpec f s
/-- OUTPUT CONFIG (R149). -/
def execOutputConfig (f : OrderFrame) (s : State) : Host.Outcome State Fault Refusal := order 0x52 outputConfigSpec f s
/-- OUTPUT_PERIOD_EXPIRY (R151). -/
def execOutputPeriodExpiry (s : State) : Host.Outcome State Fault Refusal := event actOutputPeriodExpiry s

end Sys2Proof.Machine
end

