-- ==== Sys2Proof/Machine/Playback.lean ====
section
/-! DEFINITION. The playback's orders and events (chapter 03): GO from its three sources, HOLD, RESUME, GOTO, BACK,
STANDBY SET, PLAYBACK CONFIG, the follow and lockout timers, the GO line. SHOW RESET is in Reset.lean. -/

namespace Sys2Proof.Machine

/-- The checks of a GO from an order or the line, in order; the line gives 0 as expected number (R48). -/
def checkGo (expected : Nat) (s : State) : Except Reason CueRecord :=
  match s.play.state with
  | .held => .error .held
  | .resolving _ => .error .busy
  | .standby | .running =>
    match standbyRecord s with
    | none => .error .endOfCues
    | some r =>
      if expected ≠ 0 ∧ expected ≠ r.number then .error .wrongCue
      else if s.play.lockoutRunning then .error .lockout
      else .ok r

/-- The data after a refused GO: the standby number after WRONG_CUE (R48). -/
def goRefusalData (reason : Reason) (s : State) : List Byte :=
  if reason = .wrongCue then nat16 (standbyNumber s) else []

/-- GO: expected standby number, 0 for no check; the answer carries the fired cue and the new standby (R49). -/
def goBody (p : List Byte) (s : State) : OrderResult :=
  match checkGo (wordAt p 0) s with
  | .error reason => .refuse reason (goRefusalData reason s)
  | .ok r => .done (nat16 r.number ++ nat16 (standbyNumber (takeGo r s))) (takeGo r s)

/-- HOLD (R55). -/
def holdBody (_p : List Byte) (s : State) : OrderResult :=
  .done [(actHold s).play.state.code] (actHold s)

/-- What RESUME gives back (R56). -/
def actResume (s : State) : State :=
  match s.play.state with
  | .held => settle { s with play := { s.play with state := .running, freeze := false } }
  | .resolving r =>
    { s with play := { s.play with state := .resolving { r with holdRequested := false }, freeze := false } }
  | .standby | .running => s

/-- RESUME (R56). -/
def resumeBody (_p : List Byte) (s : State) : OrderResult :=
  .done [(actResume s).play.state.code] (actResume s)

/-- GOTO: cue and goto time, absent taken from the configuration (R57). -/
def gotoBody (p : List Byte) (s : State) : OrderResult :=
  if s.play.state.isResolving then .refuse .busy []
  else if isStored s.cues.table (wordAt p 0) = false then .refuse .noCue []
  else .done [] (startResolution (wordAt p 0) ((timeField (wordAt p 2)).getD s.play.config.gotoTime) false s)

/-- BACK: a GOTO to the stored cue before the current cue with the back time (R58). -/
def backBody (_p : List Byte) (s : State) : OrderResult :=
  if s.play.state.isResolving then .refuse .busy []
  else match lastBefore s.cues.table s.play.current with
    | none => .refuse .noCue []
    | some goal => .done (nat16 goal) (startResolution goal s.play.config.backTime false s)

/-- STANDBY SET: the given cue becomes standby with the explicit mark (R46). -/
def standbySetBody (p : List Byte) (s : State) : OrderResult :=
  if s.play.state.isResolving then .refuse .busy []
  else if isStored s.cues.table (wordAt p 0) = false then .refuse .noCue []
  else .done (nat16 (wordAt p 0))
    { s with play := { s.play with standby := some { number := wordAt p 0, explicit := true } } }

/-- The lockout as a change of its time finds it: one that runs goes on and has the new time from then on; one that has
run out does not run again, though its LOCKOUT_EXPIRY is still to come (R51). -/
def Playback.lockoutKept (p : Playback) : Option Nat :=
  if p.lockoutRunning then p.lockout else none

/-- PLAYBACK CONFIG: lockout ms, default goto time, back time, local GO; the times clamped (R63). -/
def playbackConfigBody (p : List Byte) (s : State) : OrderResult :=
  match flagOf (byteAt p 6) with
  | none => .refuse .range []
  | some localGo =>
    .done [] { s with play := { s.play with
      lockout := s.play.lockoutKept
      config := { lockoutTime := min 2000 (wordAt p 0), gotoTime := clampTenths (wordAt p 2)
                  backTime := clampTenths (wordAt p 4), localGo := localGo } } }

/-- A fall of the GO line (R50): a press is a GO when local GO is enabled or in LOCAL mode; a refused press latches
GO_IGNORED. A line already low gives no press. -/
def actGoLinePress (s : State) : State :=
  match s.play.goLine with
  | .low => s
  | .high =>
    let fallen := { s with play := { s.play with goLine := .low } }
    if s.play.config.localGo || s.sup.localMode then
      match checkGo 0 fallen with
      | .error reason => latch .goIgnored (latchRefusal reason fallen)
      | .ok r => takeGo r fallen
    else fallen

/-- A rise of the GO line: no event but that the next fall is a press (R50). -/
def actGoLineRise (s : State) : State :=
  { s with play := { s.play with goLine := .high } }

/-- The follow timer has reached 0 and a follow GO can occur: not in HELD nor in RESOLVING (R53). -/
def followDue (s : State) : Bool :=
  match s.play.follow, s.play.state with
  | some 0, .standby | some 0, .running => true
  | _, _ => false

/-- A follow GO: the timer stops and the standby is fired, with no check of the lockout and no restart of it; with
no standby END_REACHED is latched (R53). -/
def actFollowExpiry (s : State) : State :=
  if followDue s then
    let stopped := { s with play := { s.play with follow := none } }
    match standbyRecord stopped with
    | none => latch .endReached stopped
    | some r => fire r stopped
  else s

/-- The lockout time has passed since the GO the lockout guards (R51). -/
def lockoutDue (s : State) : Bool :=
  s.play.lockout.isSome && !s.play.lockoutRunning

/-- The lockout runs out (R51). -/
def actLockoutExpiry (s : State) : State :=
  if lockoutDue s then { s with play := { s.play with lockout := none } } else s

/-- GO (0x10). -/
def goSpec : OrderSpec := showOrder 2 goBody
/-- HOLD (0x11). -/
def holdSpec : OrderSpec := showOrder 0 holdBody
/-- RESUME (0x12). -/
def resumeSpec : OrderSpec := showOrder 0 resumeBody
/-- GOTO (0x13). -/
def gotoSpec : OrderSpec := showOrder 4 gotoBody
/-- BACK (0x14). -/
def backSpec : OrderSpec := showOrder 0 backBody
/-- STANDBY SET (0x15). -/
def standbySetSpec : OrderSpec := showOrder 2 standbySetBody
/-- PLAYBACK CONFIG (0x75). -/
def playbackConfigSpec : OrderSpec := showOrder 7 playbackConfigBody

/-- GO (R47–R54). -/
def execGo (f : OrderFrame) (s : State) : Host.Outcome State Fault Refusal := order 0x10 goSpec f s
/-- HOLD (R55). -/
def execHold (f : OrderFrame) (s : State) : Host.Outcome State Fault Refusal := order 0x11 holdSpec f s
/-- RESUME (R56). -/
def execResume (f : OrderFrame) (s : State) : Host.Outcome State Fault Refusal := order 0x12 resumeSpec f s
/-- GOTO (R57). -/
def execGoto (f : OrderFrame) (s : State) : Host.Outcome State Fault Refusal := order 0x13 gotoSpec f s
/-- BACK (R58). -/
def execBack (f : OrderFrame) (s : State) : Host.Outcome State Fault Refusal := order 0x14 backSpec f s
/-- STANDBY SET (R46). -/
def execStandbySet (f : OrderFrame) (s : State) : Host.Outcome State Fault Refusal := order 0x15 standbySetSpec f s
/-- PLAYBACK CONFIG (R63). -/
def execPlaybackConfig (f : OrderFrame) (s : State) : Host.Outcome State Fault Refusal :=
  order 0x75 playbackConfigSpec f s
/-- GO_LINE_PRESS (R50). -/
def execGoLinePress (s : State) : Host.Outcome State Fault Refusal := event actGoLinePress s
/-- GO_LINE_RISE (R50). -/
def execGoLineRise (s : State) : Host.Outcome State Fault Refusal := event actGoLineRise s
/-- FOLLOW_EXPIRY (R53). -/
def execFollowExpiry (s : State) : Host.Outcome State Fault Refusal := event actFollowExpiry s
/-- LOCKOUT_EXPIRY (R51). -/
def execLockoutExpiry (s : State) : Host.Outcome State Fault Refusal := event actLockoutExpiry s

end Sys2Proof.Machine
end

