-- ==== Sys2Proof/Machine/Reset.lean ====
section
/-! DEFINITION. The two resets: SHOW RESET (R62 with R41, R85, R125, R142, R179) and the beginning and the end of a full
reset (R2). -/

namespace Sys2Proof.Machine

/-! ### Show reset -/

/-- The Fade Engine at a show reset: table empty, every rest position at its base, last completed cue 0 (R85). -/
def FadeEngine.showReset (u : FadeEngine) : FadeEngine :=
  { u with rest := u.base, entries := [], lastCompleted := 0 }

/-- The Playback Controller at a show reset; the standby is recomputed apart; lockout and configuration stay (R62). -/
def Playback.showReset (u : Playback) : Playback :=
  { u with state := .standby, freeze := false, current := 0, standby := none, follow := none }

/-- An ownership record at a show reset: a park ends in a let-go from its ramp value, any other stays (R125). -/
def Ownership.unparked (u : Ownership) (t : Target) : Owner :=
  match u.owners[t] with
  | .parked position start duration elapsed => u.released (rampValue position start duration elapsed)
  | .auto => .auto
  | .operator strip => .operator strip
  | .glide release time elapsed => .glide release time elapsed

/-- The Ownership Unit at a show reset (R125). -/
def Ownership.showReset (u : Ownership) : Ownership :=
  { u with owners := Vector.ofFn u.unparked }

/-- The Group and Mute Unit at a show reset: flags clear, mute groups OPEN, every request evaluated once (R142). -/
def MuteUnit.showReset (u : MuteUnit) : MuteUnit :=
  reevaluate u { u with groupStates := Vector.replicate 8 .opened, flags := Vector.replicate 64 false }

/-- The Status Unit at a show reset, as one change of the latch: clear, then STATE_CHANGED if a present state
changed; a pulse only where STATE_CHANGED was clear before and is latched after (R179, R180). -/
def StatusUnit.showReset (u : StatusUnit) (changed : Bool) : StatusUnit :=
  if changed then
    let counted := if u.latched .stateChanged then u else u.countPulse .stateChanged
    { counted with latch := Event.stateChanged.bit }
  else { u with latch := 0 }

/-- The blocks of the running show at a show reset, the latch apart. -/
def clearShow (s : State) : State :=
  recomputeStandby { s with
    play := s.play.showReset, fade := s.fade.showReset, own := s.own.showReset, mute := s.mute.showReset
    cues := { s.cues with edit := none } }

/-- A show reset, one change (R62, R179). -/
def actShowReset (s : State) : State :=
  let cleared := clearShow s
  { cleared with status := s.status.showReset (decide (present s ≠ present cleared)) }

/-- SHOW RESET (R62). -/
def showResetBody (_p : List Byte) (s : State) : OrderResult :=
  .done [] (actShowReset s)

/-- SHOW RESET (0x18). -/
def showResetSpec : OrderSpec := showOrder 0 showResetBody

/-- SHOW RESET (R62). -/
def execShowReset (f : OrderFrame) (s : State) : Host.Outcome State Fault Refusal := order 0x18 showResetSpec f s

/-! ### Full reset -/

/-- The part while a full reset lasts: every block at its initial value, nothing sent, no timer running (R2); the
queue and the model's counter of free values are not the part's (log 17, 18). -/
def heldInReset (s : State) : State :=
  { State.reset with
    pending := s.pending, choices := s.choices, inReset := true, out := { OutputUnit.reset with next := none } }

/-- The part at the end of a full reset, before the STOP line acts: clock 0, address from the pins, GO line at its
level (R2, R50, R150, R159). -/
def releasedFromReset (pins : Address) (goLine : Level) (s : State) : State :=
  { State.reset with
    pending := s.pending, choices := s.choices
    link := { LinkPort.reset with address := pins }
    play := { Playback.reset with goLine := goLine } }

/-- The end of a full reset; a STOP line low then is a fall taken then (R132). With no reset in progress there is
none to end (log 5). -/
def actFullResetEnd (pins : Address) (goLine stopLine : Level) (s : State) : State :=
  if s.inReset then
    let released := releasedFromReset pins goLine s
    noteChanges released (setStopLine stopLine released)
  else s

/-- FULL_RESET (R2). -/
def execFullReset (s : State) : Host.Outcome State Fault Refusal := .next (heldInReset s)

/-- FULL_RESET_END (R2). -/
def execFullResetEnd (pins : Address) (goLine stopLine : Level) (s : State) : Host.Outcome State Fault Refusal :=
  .next (actFullResetEnd pins goLine stopLine s)

end Sys2Proof.Machine
end

