-- ==== Sys2Proof/Machine/StatusOrders.lean ====
section
/-! DEFINITION. The status orders and the ATTN pulses (chapter 11), and ADDRESS MASK SET (R159). -/

namespace Sys2Proof.Machine

/-- The present set as STATUS READ carries it: bit 0 SURFACE, 1 HELD, 2 RESOLVING, 3 STOP_ACTIVE, 4 LOCAL,
5 EDIT_OPEN (section 9.8). -/
def Present.code (q : Present) : Byte :=
  nat8 (q.surface.toNat + 2 * q.held.toNat + 4 * q.resolving.toNat + 8 * q.stopActive.toNat
    + 16 * q.localMode.toNat + 32 * q.editOpen.toNat)

/-- The answer data of STATUS READ (R182, section 9.7). -/
def statusBytes (s : State) : List Byte :=
  [(present s).code, s.sup.link.code] ++ nat16 s.status.latch.toNat ++ nat16 s.fade.lastCompleted
    ++ nat16 s.play.current ++ nat16 (standbyNumber s) ++ [nat8 s.fade.entries.length] ++ nat16 s.link.collisions

/-- STATUS READ: under READ_CLEARS the events it reports are cleared (R182). -/
def statusReadBody (_p : List Byte) (s : State) : OrderResult :=
  match s.status.policy with
  | .orderClears => .done (statusBytes s) s
  | .readClears => .done (statusBytes s) { s with status := s.status.clear s.status.latch }

/-- STATUS CLEAR (R183). -/
def statusClearBody (p : List Byte) (s : State) : OrderResult :=
  match eventSetOf (wordAt p 0) with
  | none => .refuse .range []
  | some events => .done [] { s with status := s.status.clear events }

/-- STATUS MASK (R181). -/
def statusMaskBody (p : List Byte) (s : State) : OrderResult :=
  match eventSetOf (wordAt p 0) with
  | none => .refuse .range []
  | some events => .done [] { s with status := { s.status with mask := events } }

/-- A change of the attention mode leaves no pulse pending (R180). -/
def StatusUnit.setMode (u : StatusUnit) (mode : AttentionMode) : StatusUnit :=
  { u with mode := mode, pulses := if mode = u.mode then u.pulses else 0 }

/-- ATTENTION CONFIG: attention mode and clear policy (R181). -/
def attentionConfigBody (p : List Byte) (s : State) : OrderResult :=
  match modeOf (byteAt p 0), policyOf (byteAt p 1) with
  | some mode, some policy => .done [] { s with status := { s.status.setMode mode with policy := policy } }
  | _, _ => .refuse .range []

/-- ADDRESS MASK SET (R159). -/
def addressMaskSetBody (p : List Byte) (s : State) : OrderResult :=
  if 31 < byteAt p 0 then .refuse .range []
  else .done [nat8 (byteAt p 0)] { s with link := { s.link with mask := BitVec.ofNat 5 (byteAt p 0) } }

/-- A pulse is in progress or due: PULSE mode with a count above 0 (R180). -/
def pulseDue (s : State) : Bool :=
  decide (s.status.mode = .pulse) && decide (0 < s.status.pulses)

/-- One pulse ends and lowers the count by 1 (R180). -/
def actAttnPulse (s : State) : State :=
  if pulseDue s then { s with status := { s.status with pulses := s.status.pulses - 1 } } else s

/-- STATUS READ (0x70). -/
def statusReadSpec : OrderSpec := readOrder 0 statusReadBody
/-- STATUS CLEAR (0x71). -/
def statusClearSpec : OrderSpec := openOrder 2 statusClearBody
/-- STATUS MASK (0x72). -/
def statusMaskSpec : OrderSpec := openOrder 2 statusMaskBody
/-- ATTENTION CONFIG (0x73). -/
def attentionConfigSpec : OrderSpec := openOrder 2 attentionConfigBody
/-- ADDRESS MASK SET (0x74). -/
def addressMaskSetSpec : OrderSpec := showOrder 1 addressMaskSetBody

/-- STATUS READ (R182). -/
def execStatusRead (f : OrderFrame) (s : State) : Host.Outcome State Fault Refusal := order 0x70 statusReadSpec f s
/-- STATUS CLEAR (R183). -/
def execStatusClear (f : OrderFrame) (s : State) : Host.Outcome State Fault Refusal := order 0x71 statusClearSpec f s
/-- STATUS MASK (R181). -/
def execStatusMask (f : OrderFrame) (s : State) : Host.Outcome State Fault Refusal := order 0x72 statusMaskSpec f s
/-- ATTENTION CONFIG (R181). -/
def execAttentionConfig (f : OrderFrame) (s : State) : Host.Outcome State Fault Refusal :=
  order 0x73 attentionConfigSpec f s
/-- ADDRESS MASK SET (R159). -/
def execAddressMaskSet (f : OrderFrame) (s : State) : Host.Outcome State Fault Refusal :=
  order 0x74 addressMaskSetSpec f s
/-- ATTN_PULSE (R180). -/
def execAttnPulse (s : State) : Host.Outcome State Fault Refusal := event actAttnPulse s

end Sys2Proof.Machine
end

