-- ==== Sys2Proof/Machine/Supervision.lean ====
section
/-! DEFINITION. Link supervision and local operation (chapter 10): question and answer, the error counter and the
link state, the action on loss, HEARTBEAT, SUPERVISION CONFIG, RECLAIM, the window's expiry. -/

namespace Sys2Proof.Machine

/-- The feedback bit: exclusive-or of bits 7, 5, 4 and 3 (R170). -/
def feedbackBit (q : Byte) : Bool :=
  (q.getLsbD 7 ^^ q.getLsbD 5) ^^ (q.getLsbD 4 ^^ q.getLsbD 3)

/-- The question advanced (R170). -/
def nextQuestion (q : Byte) : Byte :=
  (q <<< 1) + (if feedbackBit q then 1 else 0)

/-- The expected answer (R170). -/
def expectedAnswer (q key : Byte) : Byte :=
  (5 * q + 0x3B) ^^^ key

/-- The link state found again from the counter, T and the state before (R172). -/
def linkAfter (counter threshold : Nat) (before : LinkState) : LinkState :=
  if counter = 0 then .linked
  else if threshold ≤ counter then .lost
  else match before with
    | .lost => .lost
    | .linked | .degraded | .off => .degraded

/-- A SAFE goto: a resolution toward the safe cue; one in flight is abandoned and its hold-requested kept; the
freeze stays (R59, R100, R173). -/
def startSafeGoto (s : State) : State :=
  let hold := match s.play.state with
    | .resolving r => r.holdRequested
    | .standby | .running | .held => false
  startResolution s.sup.config.safeCue s.sup.config.safeTime hold s

/-- LOCAL mode is set or cleared (R174, R175). -/
def setLocal (mode : Bool) (s : State) : State :=
  { s with sup := { s.sup with localMode := mode } }

/-- The action at an entry into LOST (R173). -/
def lossAction (s : State) : State :=
  match s.sup.config.action with
  | .report => s
  | .localMode => setLocal true s
  | .safe =>
    if isStored s.cues.table s.sup.config.safeCue then startSafeGoto (setLocal true s)
    else latch .noSafeCue (setLocal true s)

/-- The link state is found again; entries into DEGRADED and LOST are latched, and an entry into LOST runs the
action (R172, R173). -/
def relink (s : State) : State :=
  let link := linkAfter s.sup.counter s.sup.config.threshold s.sup.link
  let found := { s with sup := { s.sup with link := link } }
  if link = s.sup.link then s
  else match link with
    | .lost => lossAction (latch .linkLost found)
    | .degraded => latch .linkDegraded found
    | .linked | .off => found

/-- A new window of the length in force (R169). -/
def Supervisor.newWindow (u : Supervisor) : Supervisor :=
  { u with window := some { length := u.config.window, elapsed := 0 } }

/-- The counter one higher, at most 15 (R171, R172). -/
def Supervisor.countError (u : Supervisor) : Supervisor :=
  { u with counter := min Config.maxErrors (u.counter + 1) }

/-- The verdicts (R171). -/
inductive Verdict where
  | good
  | early
  | wrong
deriving DecidableEq, Repr

/-- The code of a verdict (section 9.8). -/
def Verdict.code : Verdict → Byte
  | .good => 0
  | .early => 1
  | .wrong => 2

/-- The verdict on an answer byte in a window: EARLY in its closed part, the first quarter (R169, R171). -/
def judgeAnswer (u : Supervisor) (w : SupervisionWindow) (answer : Byte) : Verdict :=
  if w.elapsed < w.length / 4 then .early
  else if answer = expectedAnswer u.question u.config.key then .good
  else .wrong

/-- Counter and question after a verdict (R171). -/
def Supervisor.afterVerdict (u : Supervisor) : Verdict → Supervisor
  | .good => { u with counter := u.counter - 1, question := nextQuestion u.question }
  | .early | .wrong => u.countError

/-- The answer data of HEARTBEAT: verdict, question, counter, link state (R171). -/
def heartbeatBytes (v : Verdict) (u : Supervisor) : List Byte :=
  [v.code, u.question, nat8 u.counter, u.link.code]

/-- HEARTBEAT: judged against the running window, which it ends; with supervision disabled nothing changes (R171). -/
def heartbeatBody (p : List Byte) (s : State) : OrderResult :=
  match s.sup.window with
  | none => .done (heartbeatBytes .wrong s.sup) s
  | some w =>
    let v := judgeAnswer s.sup w (p.getD 0 0)
    let s' := relink { s with sup := (s.sup.afterVerdict v).newWindow }
    .done (heartbeatBytes v s'.sup) s'

/-- The window's elapsed has reached its length (R169). -/
def windowDue (s : State) : Bool :=
  match s.sup.window with
  | some w => decide (w.length ≤ w.elapsed)
  | none => false

/-- A window expiry: the counter rises and a new window starts (R169, R172). -/
def actWindowExpiry (s : State) : State :=
  if windowDue s then relink { s with sup := s.sup.countError.newWindow } else s

/-- A window length is one of five (R168). -/
def windowLengthOk (n : Nat) : Bool :=
  n == 100 || n == 250 || n == 500 || n == 1000 || n == 2500

/-- The configuration of a SUPERVISION CONFIG payload, if in range (R168). -/
def supervisionFields (p : List Byte) : Option SupervisionConfig :=
  match flagOf (byteAt p 0), actionOf (byteAt p 4) with
  | some enable, some action =>
    if windowLengthOk (wordAt p 1) && decide (1 ≤ byteAt p 3) && decide (byteAt p 3 ≤ 15)
        && decide (wordAt p 5 ≤ Config.maxCue) then
      some { enable := enable, window := wordAt p 1, threshold := byteAt p 3, action := action
             safeCue := wordAt p 5, safeTime := clampTenths (wordAt p 7), key := p.getD 9 0, seed := p.getD 10 0 }
    else none
  | _, _ => none

/-- The first question of a seed (R170). -/
def firstQuestion (seed : Byte) : Byte :=
  if seed = 0 then 1 else seed

/-- The effect of a new configuration by the enable before and after (R168). -/
def configureSupervision (c : SupervisionConfig) (s : State) : State :=
  let stored := { s.sup with config := c }
  match s.sup.window.isSome, c.enable with
  | false, true =>
    { s with sup := ({ stored with counter := 0, question := firstQuestion c.seed, link := .linked }).newWindow }
  | true, true => relink { s with sup := stored }
  | true, false => { s with sup := { stored with window := none, counter := 0, link := .off } }
  | false, false => { s with sup := stored }

/-- SUPERVISION CONFIG (R168). -/
def supervisionConfigBody (p : List Byte) (s : State) : OrderResult :=
  match supervisionFields p with
  | none => .refuse .range []
  | some c => .done [] (configureSupervision c s)

/-- RECLAIM (R175). -/
def reclaimBody (_p : List Byte) (s : State) : OrderResult :=
  if s.sup.localMode = false then .done [] s
  else if s.sup.link = .linked then .done [] (setLocal false s)
  else .refuse .notLinked []

/-- HEARTBEAT (0x60): accepted in LOCAL mode, ignored on a masked match. -/
def heartbeatSpec : OrderSpec := readOrder 1 heartbeatBody
/-- SUPERVISION CONFIG (0x61). -/
def supervisionConfigSpec : OrderSpec := showOrder 11 supervisionConfigBody
/-- RECLAIM (0x62). -/
def reclaimSpec : OrderSpec := openOrder 0 reclaimBody

/-- HEARTBEAT (R171). -/
def execHeartbeat (f : OrderFrame) (s : State) : Host.Outcome State Fault Refusal := order 0x60 heartbeatSpec f s
/-- SUPERVISION CONFIG (R168). -/
def execSupervisionConfig (f : OrderFrame) (s : State) : Host.Outcome State Fault Refusal :=
  order 0x61 supervisionConfigSpec f s
/-- RECLAIM (R175). -/
def execReclaim (f : OrderFrame) (s : State) : Host.Outcome State Fault Refusal := order 0x62 reclaimSpec f s
/-- WINDOW_EXPIRY (R169). -/
def execWindowExpiry (s : State) : Host.Outcome State Fault Refusal := event actWindowExpiry s

end Sys2Proof.Machine
end

