-- ==== Sys2Proof/Machine/Surface.lean ====
section
/-! DEFINITION. Operator strips, parks and glides (chapter 06): the surface port's frames, touches, stuck touch,
surface loss, the glide's end, and the orders of the Ownership Unit with TARGET READ. -/

namespace Sys2Proof.Machine

/-! ### Touches (R109–R112, R116) -/

/-- The stuck timer at a touch rise or when it is started: none with a stuck time of 0 (R110, R114). -/
def startStuck (stuckTime position : Nat) : Option StuckTimer :=
  if stuckTime = 0 then none else some { reference := position, elapsed := 0 }

/-- The stuck timer at a hold: a position more than 4 from the reference restarts it (R111). -/
def StuckTimer.hold (k : StuckTimer) (position : Nat) : StuckTimer :=
  if k.reference + 4 < position ∨ position + 4 < k.reference then { reference := position, elapsed := 0 } else k

/-- The target an OPERATOR claim by the strip on the active page takes: the page's entry if it is AUTO or GLIDE
(R104, R110). -/
def Ownership.claimable (u : Ownership) (i : Strip) : Option Target :=
  match u.bank[u.page][i] with
  | none => none
  | some t =>
    match u.owners[t] with
    | .auto | .glide _ _ _ => some t
    | .operator _ | .parked _ _ _ _ => none

/-- A touch rise of an IDLE strip (R110). -/
def Ownership.touchRise (u : Ownership) (i : Strip) (position : Nat) : Ownership :=
  match u.claimable i with
  | some t =>
    (u.setStrip i { state := .touched t (startStuck u.stuckTime position), lastPosition := position }).setOwner t
      (.operator i)
  | none => u.setStrip i { state := .blocked, lastPosition := position }

/-- A touch hold of a TOUCHED or BLOCKED strip (R111). -/
def Ownership.touchHold (u : Ownership) (i : Strip) (position : Nat) : Ownership :=
  match u.strips[i].state with
  | .touched t stuck =>
    u.setStrip i { state := .touched t (stuck.map (·.hold position)), lastPosition := position }
  | .blocked => u.setStrip i { state := .blocked, lastPosition := position }
  | .idle => u

/-- A strip becomes IDLE; the target it held is let go from its last position (R112, R115). -/
def Ownership.touchFall (u : Ownership) (i : Strip) : Ownership :=
  match u.strips[i].state with
  | .touched t _ =>
    (u.letGo t u.strips[i].lastPosition).setStrip i { u.strips[i] with state := .idle }
  | .blocked => u.setStrip i { u.strips[i] with state := .idle }
  | .idle => u

/-- Falls: the strips whose touch flag is clear (R109, pass 1). -/
def fallPass (words : Vector Word16 16) (u : Ownership) (i : Strip) : Ownership :=
  if wordTouch words[i] then u else u.touchFall i

/-- Holds: the TOUCHED and BLOCKED strips whose touch flag is set (R109, pass 2). -/
def holdPass (words : Vector Word16 16) (u : Ownership) (i : Strip) : Ownership :=
  if wordTouch words[i] then u.touchHold i (wordPosition words[i]) else u

/-- Rises: the strips that were IDLE before the report and whose touch flag is set (R109, pass 3). -/
def risePass (before : Ownership) (words : Vector Word16 16) (u : Ownership) (i : Strip) : Ownership :=
  if wordTouch words[i] && decide (before.strips[i].state = .idle) then u.touchRise i (wordPosition words[i]) else u

/-- The strips S1 to S16. -/
def allStrips : List Strip := List.finRange 16

/-- A report taken while the surface is present: falls, holds, rises (R109). -/
def Ownership.takeReport (u : Ownership) (words : Vector Word16 16) : Ownership :=
  let fallen := allStrips.foldl (fallPass words) u
  let held := allStrips.foldl (holdPass words) fallen
  allStrips.foldl (risePass u words) held

/-- One strip in the first report after absence: BLOCKED if touched (R116). -/
def absentPass (words : Vector Word16 16) (u : Ownership) (i : Strip) : Ownership :=
  if wordTouch words[i] then u.setStrip i { state := .blocked, lastPosition := wordPosition words[i] } else u

/-- The first report after absence claims nothing (R116). -/
def Ownership.takeFirstReport (u : Ownership) (words : Vector Word16 16) : Ownership :=
  allStrips.foldl (absentPass words) u

/-- The motor word of a strip (R113). -/
def motorWord (s : State) (words : Vector Word16 16) (i : Strip) : MotorWord :=
  if wordTouch words[i] then .leave
  else match s.own.bank[s.own.page][i] with
    | none => .leave
    | some t => .drive (effective s t)

/-- The motor frame that answers a report, built after it is taken (R113, R166). -/
def motorFrame (s : State) (scan : Byte) (words : Vector Word16 16) : MotorFrame :=
  { scan := scan, page := s.own.page, words := Vector.ofFn (motorWord s words) }

/-- A valid surface report (R108, R109, R113, R116). -/
def actSurfaceReport (scan : Byte) (words : Vector Word16 16) (s : State) : State :=
  let own := if s.surface.present then s.own.takeReport words else s.own.takeFirstReport words
  let taken := { s with own := own }
  { taken with surface := { s.surface with
      silence := some Config.silenceTime, rx := .hunt
      motorQueue := s.surface.motorQueue ++ [motorFrame taken scan words] } }

/-- The surface receiver returns to HUNT, the frame dropped with nothing latched (R108, R165). -/
def dropSurfaceFrame (s : State) : State :=
  { s with surface := { s.surface with rx := .hunt } }

/-- A surface frame completes with a check: a valid report if it agrees, else dropped (R108, R165). -/
def actSurfaceCheck (scan : Byte) (words : Vector Word16 16) (check : Word16) (s : State) : State :=
  if check = surfaceCheck scan words then actSurfaceReport scan words s else dropSurfaceFrame s

/-! ### The surface receiver (R165) -/

/-- The sixteen words of a report's bytes after its scan count. -/
def stripWords (bytes : List Byte) : Vector Word16 16 :=
  Vector.ofFn fun i : Strip => wordOfBytes (bytes.getD (2 * i.val) 0) (bytes.getD (2 * i.val + 1) 0)

/-- A completed surface frame is judged: 35 bytes after the lead (R165). -/
def judgeSurface (bytes : List Byte) (s : State) : State :=
  actSurfaceCheck (bytes.getD 0 0) (stripWords (bytes.drop 1)) (wordOfBytes (bytes.getD 33 0) (bytes.getD 34 0)) s

/-- A byte without fault arrives on the surface port (R165). -/
def surfaceByte (s : State) (b : Byte) : State :=
  match s.surface.rx with
  | .hunt =>
    if b = surfaceLead then { s with surface := { s.surface with rx := .receive [] } } else s
  | .receive gathered =>
    if gathered.length + 1 = 35 then noteChanges s (judgeSurface (gathered ++ [b]) s)
    else { s with surface := { s.surface with rx := .receive (gathered ++ [b]) } }

/-- Bytes arrive, then the frame in RECEIVE is abandoned with nothing latched; in HUNT there is none (R165). -/
def actSurfaceAbandon (received : List Byte) (s : State) : State :=
  dropSurfaceFrame (received.foldl surfaceByte s)

/-- Bytes arrive, then a gap of more than 100 µs (R165). -/
def actSurfaceGap (received : List Byte) (s : State) : State :=
  actSurfaceAbandon received s

/-- Bytes arrive, then one with a framing fault: discarded in HUNT, abandoning the frame in RECEIVE (R154, R165). -/
def actSurfaceFault (received : List Byte) (_last : Byte) (s : State) : State :=
  actSurfaceAbandon received s

/-- The oldest motor frame waiting starts; the one before it has ended (R166). With none waiting nothing starts. -/
def actMotorFrameSend (s : State) : State :=
  match s.surface.motorQueue with
  | [] => s
  | m :: rest => { s with surface := { s.surface with motorQueue := rest, motorOut := some m } }

/-! ### Expiries (R114, R115, R118) -/

/-- The silence timer has reached 0 (R115). -/
def surfaceLossDue (s : State) : Bool :=
  s.surface.silence == some 0

/-- Surface loss (R115). -/
def actSurfaceLoss (s : State) : State :=
  if surfaceLossDue s then
    latch .surfaceLost { s with
      own := allStrips.foldl Ownership.touchFall s.own
      surface := { s.surface with silence := none } }
  else s

/-- The strip's stuck timer has reached the stuck time (R114). -/
def Ownership.stuckDue (u : Ownership) (i : Strip) : Bool :=
  match u.strips[i].state with
  | .touched _ (some k) => decide (u.stuckTime * 1000 ≤ k.elapsed)
  | .touched _ none | .idle | .blocked => false

/-- A stuck-touch expiry: the strip BLOCKED, its target let go, TOUCH_STUCK latched (R114). -/
def actStuckTouchExpiry (i : Strip) (s : State) : State :=
  match s.own.stuckDue i, s.own.strips[i].state with
  | true, .touched t _ =>
    latch .touchStuck { s with own := (s.own.letGo t s.own.strips[i].lastPosition).blockStrip i }
  | _, _ => s

/-- The target's glide elapsed has reached its glide time (R118). -/
def Ownership.glideDue (u : Ownership) (t : Target) : Bool :=
  match u.owners[t] with
  | .glide _ time elapsed => decide (time ≤ elapsed)
  | .auto | .operator _ | .parked _ _ _ _ => false

/-- A glide expiry: the target becomes AUTO (R118). -/
def actGlideExpiry (t : Target) (s : State) : State :=
  if s.own.glideDue t then { s with own := s.own.setOwner t .auto } else s

/-! ### Orders (R106, R107, R119, R121, R123, R124) -/

/-- PARK of a target (R119): the ramp starts from the effective position, an owning strip becomes BLOCKED. -/
def parkTarget (t : Target) (position parkTime : Nat) (s : State) : State :=
  let own := match s.own.owners[t] with
    | .operator i => s.own.blockStrip i
    | .auto | .glide _ _ _ | .parked _ _ _ _ => s.own
  { s with own := own.setOwner t (.parked position (effective s t) (parkTime * 100) 0) }

/-- PARK: target, position, park time (R119). -/
def parkBody (p : List Byte) (s : State) : OrderResult :=
  match targetOf (byteAt p 0) with
  | none => .refuse .range []
  | some t =>
    let position := clampPosition (wordAt p 1)
    .done (nat16 position) (parkTarget t position (clampTenths (wordAt p 3)) s)

/-- UNPARK: the target is let go from its ramp value (R121). -/
def unparkBody (p : List Byte) (s : State) : OrderResult :=
  match targetOf (byteAt p 0) with
  | none => .refuse .range []
  | some t =>
    match s.own.owners[t] with
    | .parked position start duration elapsed =>
      .done [] { s with own := s.own.letGo t (rampValue position start duration elapsed) }
    | .auto | .operator _ | .glide _ _ _ => .refuse .notParked []

/-- The target stands on another strip of the page (R106). -/
def onOtherStrip (bank : Vector (Vector (Option Target) 16) 4) (page : Fin 4) (strip : Strip) (t : Target) : Bool :=
  allStrips.any fun i => decide (i ≠ strip) && decide (bank[page][i] = some t)

/-- BANK ASSIGN: page, strip, target or none (R106). -/
def bankAssignBody (p : List Byte) (s : State) : OrderResult :=
  match pageOf (byteAt p 0), stripOf (byteAt p 1), bankTarget (byteAt p 2) with
  | some page, some strip, some entry =>
    if entry.any (onOtherStrip s.own.bank page strip) then .refuse .duplicate []
    else .done [] { s with own := { s.own with bank := s.own.bank.set page (s.own.bank[page].set strip entry) } }
  | _, _, _ => .refuse .range []

/-- PAGE SELECT (R107). -/
def pageSelectBody (p : List Byte) (s : State) : OrderResult :=
  match pageOf (byteAt p 0) with
  | none => .refuse .range []
  | some page => .done [nat8 page.val] { s with own := { s.own with page := page } }

/-- A strip record after a change of the stuck time: 0 stops its timer, a change from 0 starts it, any other change
leaves it (R114). -/
def StripRecord.retime (r : StripRecord) (old new : Nat) : StripRecord :=
  match r.state with
  | .touched t stuck =>
    if new = 0 then { r with state := .touched t none }
    else if old = 0 then { r with state := .touched t (startStuck new r.lastPosition) }
    else { r with state := .touched t stuck }
  | .idle | .blocked => r

/-- SURFACE CONFIG: stuck time, glide time, both clamped (R123, R114). -/
def surfaceConfigBody (p : List Byte) (s : State) : OrderResult :=
  let stuck := clampStuck (wordAt p 0)
  let glide := min 5000 (wordAt p 2)
  .done (nat16 stuck ++ nat16 glide)
    { s with own := { s.own with
        stuckTime := stuck, glideTime := glide
        strips := Vector.ofFn fun i : Strip => s.own.strips[i].retime s.own.stuckTime stuck } }

/-- One fade entry as TARGET READ reports it: phase, owning cue, target position, remaining ms (R124). -/
def entryBytes (e : FadeEntry) : List Byte :=
  let phase : Byte × Nat := match e.phase with
    | .waiting delay => (0, delay)
    | .running _ elapsed => (1, e.duration - elapsed)
  [phase.1] ++ nat16 e.owner ++ nat16 e.goal ++ nat32 phase.2

/-- Ownership code, owning strip, P_rel or park position, and time remaining, as TARGET READ reports them
(R124, section 9.7). -/
def ownerFields : Owner → Byte × Byte × Nat × Nat
  | .auto => (0, 0, 0, 0)
  | .operator strip => (1, codeOf strip, 0, 0)
  | .glide release time elapsed => (2, 0, release, time - elapsed)
  | .parked position _ duration elapsed => (3, 0, position, duration - elapsed)

/-- The code of a ramp state (section 9.7). -/
def MuteRamp.code : MuteRamp → Byte
  | .opened => 0
  | .muting _ _ _ _ => 1
  | .muted => 2
  | .opening _ _ _ => 3

/-- What TARGET READ adds for a channel: attenuation, ramp state, level code (R124). -/
def channelBytes (s : State) (t : Target) : List Byte :=
  match targetChannel t with
  | none => []
  | some c => nat16 s.mute.ramps[c].attenuation ++ [s.mute.ramps[c].code] ++ wordBytes (channelCode s c).word

/-- The answer data of TARGET READ (R124, section 9.7). -/
def targetReadBytes (s : State) (t : Target) : List Byte :=
  let o := ownerFields s.own.owners[t]
  let entries := s.fade.entries.filter fun e => decide (e.target = t)
  [o.1, o.2.1] ++ nat16 (s.fade.automation t) ++ nat16 (effective s t) ++ nat16 s.fade.rest[t]
    ++ nat16 s.fade.base[t] ++ nat16 o.2.2.1 ++ nat32 o.2.2.2 ++ [nat8 entries.length]
    ++ entries.flatMap entryBytes ++ channelBytes s t

/-- TARGET READ (R124). -/
def targetReadBody (p : List Byte) (s : State) : OrderResult :=
  match targetOf (byteAt p 0) with
  | none => .refuse .range []
  | some t => .done (targetReadBytes s t) s

/-- PARK (0x31). -/
def parkSpec : OrderSpec := showOrder 5 parkBody
/-- UNPARK (0x32). -/
def unparkSpec : OrderSpec := showOrder 1 unparkBody
/-- TARGET READ (0x33). -/
def targetReadSpec : OrderSpec := readOrder 1 targetReadBody
/-- BANK ASSIGN (0x40). -/
def bankAssignSpec : OrderSpec := showOrder 3 bankAssignBody
/-- PAGE SELECT (0x41). -/
def pageSelectSpec : OrderSpec := showOrder 1 pageSelectBody
/-- SURFACE CONFIG (0x42). -/
def surfaceConfigSpec : OrderSpec := showOrder 4 surfaceConfigBody

/-- PARK (R119). -/
def execPark (f : OrderFrame) (s : State) : Host.Outcome State Fault Refusal := order 0x31 parkSpec f s
/-- UNPARK (R121). -/
def execUnpark (f : OrderFrame) (s : State) : Host.Outcome State Fault Refusal := order 0x32 unparkSpec f s
/-- TARGET READ (R124). -/
def execTargetRead (f : OrderFrame) (s : State) : Host.Outcome State Fault Refusal := order 0x33 targetReadSpec f s
/-- BANK ASSIGN (R106). -/
def execBankAssign (f : OrderFrame) (s : State) : Host.Outcome State Fault Refusal := order 0x40 bankAssignSpec f s
/-- PAGE SELECT (R107). -/
def execPageSelect (f : OrderFrame) (s : State) : Host.Outcome State Fault Refusal := order 0x41 pageSelectSpec f s
/-- SURFACE CONFIG (R123). -/
def execSurfaceConfig (f : OrderFrame) (s : State) : Host.Outcome State Fault Refusal :=
  order 0x42 surfaceConfigSpec f s
/-- SURFACE_REPORT (R109). -/
def execSurfaceReport (scan : Byte) (words : Vector Word16 16) (s : State) : Host.Outcome State Fault Refusal :=
  event (actSurfaceReport scan words) s
/-- SURFACE_FRAME_DROPPED (R108). -/
def execSurfaceFrameDropped (scan : Byte) (words : Vector Word16 16) (check : Word16) (s : State) :
    Host.Outcome State Fault Refusal :=
  event (actSurfaceCheck scan words check) s
/-- SURFACE_GAP_EXPIRY (R165). -/
def execSurfaceGapExpiry (received : List Byte) (s : State) : Host.Outcome State Fault Refusal :=
  event (actSurfaceGap received) s
/-- SURFACE_FRAMING_FAULT (R165). -/
def execSurfaceFramingFault (received : List Byte) (last : Byte) (s : State) : Host.Outcome State Fault Refusal :=
  event (actSurfaceFault received last) s
/-- MOTOR_FRAME_SEND (R166). -/
def execMotorFrameSend (s : State) : Host.Outcome State Fault Refusal := event actMotorFrameSend s
/-- SURFACE_LOSS (R115). -/
def execSurfaceLoss (s : State) : Host.Outcome State Fault Refusal := event actSurfaceLoss s
/-- STUCK_TOUCH_EXPIRY (R114). -/
def execStuckTouchExpiry (i : Strip) (s : State) : Host.Outcome State Fault Refusal := event (actStuckTouchExpiry i) s
/-- GLIDE_EXPIRY (R118). -/
def execGlideExpiry (t : Target) (s : State) : Host.Outcome State Fault Refusal := event (actGlideExpiry t) s

end Sys2Proof.Machine
end

