-- ==== Sys2Proof/Machine/Link.lean ====
section
/-! DEFINITION. The Link Port's receiver byte by byte (R157), completed frames of any kind (R157, R158, R160), and
the fate of an answer (R163, R164). -/

namespace Sys2Proof.Machine

/-- What the part does with a kind of section 9.7; none for a kind not listed there. -/
def orderSpec (kind : Byte) : Option OrderSpec :=
  match kind.toNat with
  | 0x10 => some goSpec
  | 0x11 => some holdSpec
  | 0x12 => some resumeSpec
  | 0x13 => some gotoSpec
  | 0x14 => some backSpec
  | 0x15 => some standbySetSpec
  | 0x16 => some stopSetSpec
  | 0x17 => some stopReleaseSpec
  | 0x18 => some showResetSpec
  | 0x20 => some recordBeginSpec
  | 0x21 => some moveAddSpec
  | 0x22 => some muteActionAddSpec
  | 0x23 => some recordEndSpec
  | 0x24 => some recordAbandonSpec
  | 0x25 => some recordLiveSpec
  | 0x26 => some cueDeleteSpec
  | 0x27 => some cueReadSpec
  | 0x28 => some moveReadSpec
  | 0x29 => some tableInfoSpec
  | 0x30 => some baseSetSpec
  | 0x31 => some parkSpec
  | 0x32 => some unparkSpec
  | 0x33 => some targetReadSpec
  | 0x34 => some groupAssignSpec
  | 0x35 => some muteSetSpec
  | 0x36 => some muteGroupAssignSpec
  | 0x37 => some exemptSetSpec
  | 0x38 => some muteConfigSpec
  | 0x40 => some bankAssignSpec
  | 0x41 => some pageSelectSpec
  | 0x42 => some surfaceConfigSpec
  | 0x50 => some windowSetSpec
  | 0x51 => some windowClearSpec
  | 0x52 => some outputConfigSpec
  | 0x60 => some heartbeatSpec
  | 0x61 => some supervisionConfigSpec
  | 0x62 => some reclaimSpec
  | 0x70 => some statusReadSpec
  | 0x71 => some statusClearSpec
  | 0x72 => some statusMaskSpec
  | 0x73 => some attentionConfigSpec
  | 0x74 => some addressMaskSetSpec
  | 0x75 => some playbackConfigSpec
  | _ => none

/-- A kind that is not listed: refused with UNKNOWN before any other check (R160, step 1). -/
def unknownSpec : OrderSpec :=
  { lengthOk := fun _ => true, refusedLocal := false, maskedIgnored := false
    body := fun _ _ => .refuse .unknown [] }

/-- A completed frame with a good check, whatever its kind (R158, R160). -/
def completedFrame (kind : Byte) (f : OrderFrame) (s : State) : State :=
  takeFrame kind ((orderSpec kind).getD unknownSpec) f s

/-- A completed frame with the check it carried: dropped where it does not agree (R157). -/
def checkedFrame (kind : Byte) (f : OrderFrame) (check : Word16) (s : State) : State :=
  if check = frameCheck kind f then completedFrame kind f s else dropFrame s

/-! ### The receiver (R157) -/

/-- The receiver holds these bytes of a frame. -/
def portReceive (gathered : List Byte) (s : State) : State :=
  { s with link := { s.link with port := .receive gathered } }

/-- The receiver in HUNT: the lead starts a frame; any other byte, and any with a framing fault, is discarded. -/
def huntByte (b : Byte) (fault : Bool) (s : State) : State :=
  if b = linkLead ∧ fault = false then portReceive [] s else s

/-- A frame's bytes are complete: taken if the check agrees, else dropped. -/
def judgeFrame (bytes : List Byte) (s : State) : State :=
  match splitFrame bytes with
  | some (kind, f) => noteChanges s (completedFrame kind f s)
  | none => dropFrame s

/-- The bytes after the lead, with the last just arrived: abandoned at a length byte too large, judged once the
payload and the check are in. -/
def gather (bytes : List Byte) (s : State) : State :=
  if bytes.length < 4 then portReceive bytes s
  else if maxPayload (bytes.getD 0 0) < byteAt bytes 3 then dropFrame s
  else if bytes.length < byteAt bytes 3 + 6 then portReceive bytes s
  else judgeFrame bytes s

/-- A byte on the pair: received in HUNT and RECEIVE, costing a pending answer (R163), not taken in SENDING. -/
def linkByte (fault : Bool) (s : State) (b : Byte) : State :=
  match s.link.port with
  | .hunt => huntByte b fault s
  | .receive gathered => if fault then dropFrame s else gather (gathered ++ [b]) s
  | .answerPending _ => huntByte b fault (loseAnswer s)
  | .sending _ => s

/-- Bytes without fault on the pair. -/
def linkBytes (bytes : List Byte) (s : State) : State :=
  bytes.foldl (linkByte false) s

/-- A gap of more than 1 ms abandons a frame in RECEIVE (R157). -/
def linkGap (s : State) : State :=
  match s.link.port with
  | .receive _ => dropFrame s
  | .hunt | .answerPending _ | .sending _ => s

/-- What the bytes of the pair do: not while a full reset lasts (R2); STATE_CHANGED is latched frame by frame. -/
def received (act : State → State) (s : State) : Host.Outcome State Fault Refusal :=
  .next (if s.inReset then s else act s)

/-! ### The answer (R163, R164) -/

/-- The pending answer starts. -/
def actAnswerSend (s : State) : State :=
  match s.link.port with
  | .answerPending a => { s with link := { s.link with port := .sending a } }
  | .hunt | .receive _ | .sending _ => s

/-- The answer's last check byte has gone out: the pair is released. -/
def actAnswerSent (s : State) : State :=
  match s.link.port with
  | .sending _ => portHunt s
  | .hunt | .receive _ | .answerPending _ => s

/-- A byte arrives in ANSWER PENDING. In another state no answer is pending (log 5). -/
def actAnswerPendingCollision (b : Byte) (fault : Bool) (s : State) : State :=
  match s.link.port with
  | .answerPending _ => linkByte fault s b
  | .hunt | .receive _ | .sending _ => s

/-- Byte `index` of the answer in SENDING reads back: one that differs, or with a framing fault, stops it. -/
def actReadbackCollision (index : Nat) (b : Byte) (fault : Bool) (s : State) : State :=
  match s.link.port with
  | .sending a =>
    match a.bytes[index]? with
    | some sent => if b = sent ∧ fault = false then s else loseAnswer s
    | none => s
  | .hunt | .receive _ | .answerPending _ => s

/-- UNKNOWN_ORDER (R160). -/
def execUnknownOrder (kind : Byte) (f : OrderFrame) (s : State) : Host.Outcome State Fault Refusal :=
  event (arrive (completedFrame kind f)) s
/-- IGNORED_FRAME (R158). -/
def execIgnoredFrame (kind : Byte) (f : OrderFrame) (s : State) : Host.Outcome State Fault Refusal :=
  event (arrive (completedFrame kind f)) s
/-- FRAME_CHECK_FAIL (R157). -/
def execFrameCheckFail (kind : Byte) (f : OrderFrame) (check : Word16) (s : State) :
    Host.Outcome State Fault Refusal :=
  event (arrive (checkedFrame kind f check)) s
/-- FRAME_ABANDON (R157). -/
def execFrameAbandon (bytes : List Byte) (last : Byte) (framingFault : Bool) (s : State) :
    Host.Outcome State Fault Refusal :=
  received (fun s => linkByte framingFault (linkBytes bytes s) last) s
/-- FRAME_GAP_EXPIRY (R157). -/
def execFrameGapExpiry (bytes : List Byte) (s : State) : Host.Outcome State Fault Refusal :=
  received (fun s => linkGap (linkBytes bytes s)) s
/-- ANSWER_SEND (R163). -/
def execAnswerSend (s : State) : Host.Outcome State Fault Refusal := event actAnswerSend s
/-- ANSWER_SENT (R163). -/
def execAnswerSent (s : State) : Host.Outcome State Fault Refusal := event actAnswerSent s
/-- ANSWER_PENDING_COLLISION (R163). -/
def execAnswerPendingCollision (b : Byte) (framingFault : Bool) (s : State) : Host.Outcome State Fault Refusal :=
  event (actAnswerPendingCollision b framingFault) s
/-- READBACK_COLLISION (R164). -/
def execReadbackCollision (index : Nat) (b : Byte) (framingFault : Bool) (s : State) :
    Host.Outcome State Fault Refusal :=
  event (actReadbackCollision index b framingFault) s

end Sys2Proof.Machine
end

