-- ==== Sys2Proof/Machine/Dispatch.lean ====
section
/-! DEFINITION. The meaning of each command. -/

namespace Sys2Proof.Machine

def exec (i : Instr) (s : State) : Host.Outcome State Fault Refusal :=
  match i with
  | .go f => Sys2Proof.Machine.execGo f s
  | .hold f => Sys2Proof.Machine.execHold f s
  | .resume f => Sys2Proof.Machine.execResume f s
  | .goto f => Sys2Proof.Machine.execGoto f s
  | .back f => Sys2Proof.Machine.execBack f s
  | .standbySet f => Sys2Proof.Machine.execStandbySet f s
  | .stopSet f => Sys2Proof.Machine.execStopSet f s
  | .stopRelease f => Sys2Proof.Machine.execStopRelease f s
  | .showReset f => Sys2Proof.Machine.execShowReset f s
  | .recordBegin f => Sys2Proof.Machine.execRecordBegin f s
  | .moveAdd f => Sys2Proof.Machine.execMoveAdd f s
  | .muteActionAdd f => Sys2Proof.Machine.execMuteActionAdd f s
  | .recordEnd f => Sys2Proof.Machine.execRecordEnd f s
  | .recordAbandon f => Sys2Proof.Machine.execRecordAbandon f s
  | .recordLive f => Sys2Proof.Machine.execRecordLive f s
  | .cueDelete f => Sys2Proof.Machine.execCueDelete f s
  | .cueRead f => Sys2Proof.Machine.execCueRead f s
  | .moveRead f => Sys2Proof.Machine.execMoveRead f s
  | .tableInfo f => Sys2Proof.Machine.execTableInfo f s
  | .baseSet f => Sys2Proof.Machine.execBaseSet f s
  | .park f => Sys2Proof.Machine.execPark f s
  | .unpark f => Sys2Proof.Machine.execUnpark f s
  | .targetRead f => Sys2Proof.Machine.execTargetRead f s
  | .groupAssign f => Sys2Proof.Machine.execGroupAssign f s
  | .muteSet f => Sys2Proof.Machine.execMuteSet f s
  | .muteGroupAssign f => Sys2Proof.Machine.execMuteGroupAssign f s
  | .exemptSet f => Sys2Proof.Machine.execExemptSet f s
  | .muteConfig f => Sys2Proof.Machine.execMuteConfig f s
  | .bankAssign f => Sys2Proof.Machine.execBankAssign f s
  | .pageSelect f => Sys2Proof.Machine.execPageSelect f s
  | .surfaceConfig f => Sys2Proof.Machine.execSurfaceConfig f s
  | .windowSet f => Sys2Proof.Machine.execWindowSet f s
  | .windowClear f => Sys2Proof.Machine.execWindowClear f s
  | .outputConfig f => Sys2Proof.Machine.execOutputConfig f s
  | .heartbeat f => Sys2Proof.Machine.execHeartbeat f s
  | .supervisionConfig f => Sys2Proof.Machine.execSupervisionConfig f s
  | .reclaim f => Sys2Proof.Machine.execReclaim f s
  | .statusRead f => Sys2Proof.Machine.execStatusRead f s
  | .statusClear f => Sys2Proof.Machine.execStatusClear f s
  | .statusMask f => Sys2Proof.Machine.execStatusMask f s
  | .attentionConfig f => Sys2Proof.Machine.execAttentionConfig f s
  | .addressMaskSet f => Sys2Proof.Machine.execAddressMaskSet f s
  | .playbackConfig f => Sys2Proof.Machine.execPlaybackConfig f s
  | .unknownOrder kind f => Sys2Proof.Machine.execUnknownOrder kind f s
  | .ignoredFrame kind f => Sys2Proof.Machine.execIgnoredFrame kind f s
  | .frameCheckFail kind f check => Sys2Proof.Machine.execFrameCheckFail kind f check s
  | .frameAbandon received last fault => Sys2Proof.Machine.execFrameAbandon received last fault s
  | .frameGapExpiry received => Sys2Proof.Machine.execFrameGapExpiry received s
  | .answerSend => Sys2Proof.Machine.execAnswerSend s
  | .answerSent => Sys2Proof.Machine.execAnswerSent s
  | .answerPendingCollision byte fault => Sys2Proof.Machine.execAnswerPendingCollision byte fault s
  | .readbackCollision index byte fault => Sys2Proof.Machine.execReadbackCollision index byte fault s
  | .surfaceReport scan words => Sys2Proof.Machine.execSurfaceReport scan words s
  | .surfaceFrameDropped scan words check => Sys2Proof.Machine.execSurfaceFrameDropped scan words check s
  | .surfaceGapExpiry received => Sys2Proof.Machine.execSurfaceGapExpiry received s
  | .motorFrameSend => Sys2Proof.Machine.execMotorFrameSend s
  | .surfaceLoss => Sys2Proof.Machine.execSurfaceLoss s
  | .stuckTouchExpiry strip => Sys2Proof.Machine.execStuckTouchExpiry strip s
  | .glideExpiry target => Sys2Proof.Machine.execGlideExpiry target s
  | .goLinePress => Sys2Proof.Machine.execGoLinePress s
  | .followExpiry => Sys2Proof.Machine.execFollowExpiry s
  | .lockoutExpiry => Sys2Proof.Machine.execLockoutExpiry s
  | .delayExpiry target => Sys2Proof.Machine.execDelayExpiry target s
  | .fadeCompletion target => Sys2Proof.Machine.execFadeCompletion target s
  | .resolutionCompletion => Sys2Proof.Machine.execResolutionCompletion s
  | .rampArrival channel => Sys2Proof.Machine.execRampArrival channel s
  | .stopLineFall => Sys2Proof.Machine.execStopLineFall s
  | .stopLineRise => Sys2Proof.Machine.execStopLineRise s
  | .outputPeriodExpiry => Sys2Proof.Machine.execOutputPeriodExpiry s
  | .windowExpiry => Sys2Proof.Machine.execWindowExpiry s
  | .attnPulse => Sys2Proof.Machine.execAttnPulse s
  | .fullReset => Sys2Proof.Machine.execFullReset s
  | .fullResetEnd pins goLine stopLine => Sys2Proof.Machine.execFullResetEnd pins goLine stopLine s
  | .surfaceFramingFault received last => Sys2Proof.Machine.execSurfaceFramingFault received last s
  | .goLineRise => Sys2Proof.Machine.execGoLineRise s

end Sys2Proof.Machine
end

