-- ==== Sys2Proof/Machine/Timing.lean ====
section
/-! DEFINITION. The passing of time: what one millisecond of the show clock does to every timer (R1), which events
have fallen due, and the step of the part when no command waits (log 1). -/

namespace Sys2Proof.Machine

/-! ### One millisecond -/

/-- A fade entry one millisecond on; a timer that has arrived stands (R70, log 14). -/
def FadeEntry.tick (e : FadeEntry) : FadeEntry :=
  match e.phase with
  | .waiting delay => { e with phase := .waiting (delay - 1) }
  | .running start elapsed => { e with phase := .running start (min e.duration (elapsed + 1)) }

/-- The fade table one millisecond on; the freeze stops it (R70, R83). -/
def FadeEngine.tick (freeze : Bool) (u : FadeEngine) : FadeEngine :=
  if freeze then u else { u with entries := u.entries.map FadeEntry.tick }

/-- The playback's timers one millisecond on: the freeze stops the follow timer, not the lockout (R43, R51, R52). -/
def Playback.tick (u : Playback) : Playback :=
  { u with
    follow := if u.freeze then u.follow else u.follow.map (· - 1)
    lockout := u.lockout.map (· + 1) }

/-- A glide or a park ramp one millisecond on (R118, R120). -/
def Owner.tick : Owner → Owner
  | .glide release time elapsed => .glide release time (min time (elapsed + 1))
  | .parked position start duration elapsed => .parked position start duration (min duration (elapsed + 1))
  | .auto => .auto
  | .operator strip => .operator strip

/-- A strip's stuck timer one millisecond on (R114). -/
def StripRecord.tick (r : StripRecord) : StripRecord :=
  match r.state with
  | .touched t (some k) => { r with state := .touched t (some { k with elapsed := k.elapsed + 1 }) }
  | .touched _ none | .idle | .blocked => r

/-- The Ownership Unit one millisecond on. -/
def Ownership.tick (u : Ownership) : Ownership :=
  { u with
    owners := Vector.ofFn fun t : Target => u.owners[t].tick
    strips := Vector.ofFn fun i : Strip => u.strips[i].tick }

/-- A mute ramp one millisecond on (R135). -/
def MuteRamp.tick : MuteRamp → MuteRamp
  | .muting start rate stopRate elapsed => .muting start rate stopRate (elapsed + 1)
  | .opening start rate elapsed => .opening start rate (elapsed + 1)
  | .opened => .opened
  | .muted => .muted

/-- The mute ramps one millisecond on. -/
def MuteUnit.tick (u : MuteUnit) : MuteUnit :=
  { u with ramps := Vector.ofFn fun c : Channel => u.ramps[c].tick }

/-- The silence timer one millisecond on (R108). -/
def SurfacePort.tick (u : SurfacePort) : SurfacePort :=
  { u with silence := u.silence.map (· - 1) }

/-- The supervision window one millisecond on (R169). -/
def Supervisor.tick (u : Supervisor) : Supervisor :=
  { u with window := u.window.map fun w => { w with elapsed := min w.length (w.elapsed + 1) } }

/-- One millisecond of the show clock passes (R1). -/
def advance (s : State) : State :=
  { s with
    clock := s.clock + 1
    play := s.play.tick, fade := s.fade.tick s.play.freeze, own := s.own.tick, surface := s.surface.tick
    mute := s.mute.tick, sup := s.sup.tick }

/-! ### Events that have fallen due -/

/-- An event, if its condition holds. -/
def when (due : Bool) (i : Instr) : List Instr :=
  if due then [i] else []

/-- The event of a fade entry whose timer has arrived, under a freeze too (R83). -/
def FadeEntry.dueEvent (e : FadeEntry) : List Instr :=
  when e.arrived (if e.isRunning then .fadeCompletion e.target else .delayExpiry e.target)

/-- The ms since the start of the resolution in flight, modulo 2³² (R1, R89). -/
def resolutionAge (s : State) : Option Nat :=
  match s.play.state with
  | .resolving r => some (s.clock - r.start).toNat
  | .standby | .running | .held => none

/-- The resolution in flight has reached its bound (R91). -/
def resolutionAtBound (s : State) : Bool :=
  (resolutionAge s).any fun age => decide (Config.resolutionBound ≤ age)

/-- The events that fall at this instant and no later. -/
def forcedEvents (s : State) : List Instr :=
  when (followDue s) .followExpiry ++ when (lockoutDue s) .lockoutExpiry
    ++ s.fade.entries.flatMap FadeEntry.dueEvent
    ++ allChannels.flatMap (fun c => when s.mute.ramps[c].arrived (.rampArrival c))
    ++ (List.finRange 80).flatMap (fun t => when (s.own.glideDue t) (.glideExpiry t))
    ++ allStrips.flatMap (fun i => when (s.own.stuckDue i) (.stuckTouchExpiry i))
    ++ when (surfaceLossDue s) .surfaceLoss ++ when (outputDue s) .outputPeriodExpiry
    ++ when (windowDue s) .windowExpiry ++ when (resolutionAtBound s) .resolutionCompletion

/-- The Link Port's state is RECEIVE. -/
def PortState.receiving : PortState → Bool
  | .receive _ => true
  | .hunt | .answerPending _ | .sending _ => false

/-- The Link Port's state is ANSWER PENDING. -/
def PortState.pendingAnswer : PortState → Bool
  | .answerPending _ => true
  | .hunt | .receive _ | .sending _ => false

/-- The Link Port's state is SENDING. -/
def PortState.isSending : PortState → Bool
  | .sending _ => true
  | .hunt | .receive _ | .answerPending _ => false

/-- The surface receiver's state is RECEIVE. -/
def SurfaceRx.receiving : SurfaceRx → Bool
  | .receive _ => true
  | .hunt => false

/-- The events that may fall now or later: a completion inside its bound (R91), and the events of the ports and the
ATTN line, which fall between the milliseconds (R157, R163, R165, R166, R180; log 3, 4). Each falls now if the free
value at its number says so. -/
def freeEvents (s : State) : List Instr :=
  let now := Config.occursNow s.choices
  when (s.play.state.isResolving && !resolutionAtBound s && now 0) .resolutionCompletion
    ++ when (s.link.port.pendingAnswer && now 1) .answerSend
    ++ when (s.link.port.isSending && now 2) .answerSent
    ++ when (s.link.port.receiving && now 3) (.frameGapExpiry [])
    ++ when (s.surface.rx.receiving && now 4) (.surfaceGapExpiry [])
    ++ when (!s.surface.motorQueue.isEmpty && now 5) .motorFrameSend
    ++ when (pulseDue s && now 6) .attnPulse

/-- The event taken first of those that fall at one instant: any of them, by a free value (log 2). -/
def firstTaken (choices : Nat) (event : Instr) (rest : List Instr) : Instr :=
  (event :: rest).getD (Config.takenFirst choices % (rest.length + 1)) event

/-- The step of the part while no command waits: in a full reset it stands still (R2); of the events that fall now one is
queued; with none, one millisecond passes (log 1). The events left over are found again by the next idle step from the
state the first one leaves, so what it overtakes does not occur: the completion of a resolution that it abandons (R100),
the expiry of an entry that it discards (R82). -/
def idle (s : State) : State :=
  if s.inReset then s else
  match forcedEvents s ++ freeEvents s with
  | [] => { advance s with choices := s.choices + 1 }
  | event :: rest => { s with pending := [firstTaken s.choices event rest], choices := s.choices + 1 }

end Sys2Proof.Machine
end

