-- ==== Sys2Proof/Safety.lean ====
section
/-! DEFINITION. What holds in every state the part can be in: the ranges and the agreements between blocks that the
manual states. -/

namespace Sys2Proof.Safety

open Sys2Proof.Machine

/-- A position lies within 0–1023 (R3). -/
abbrev InScale (p : Nat) : Prop :=
  p ≤ Config.maxPosition

/-! ### Positions (R3) -/

/-- A fade entry's positions are in scale and its elapsed is within its duration (R68). -/
abbrev EntryInScale (e : FadeEntry) : Prop :=
  InScale e.goal ∧
    match e.phase with
    | .waiting _ => True
    | .running start elapsed => InScale start ∧ elapsed ≤ e.duration

/-- An ownership record's positions are in scale and its elapsed is within its time (R103). -/
abbrev OwnerInScale (o : Owner) : Prop :=
  match o with
  | .auto => True
  | .operator _ => True
  | .glide release time elapsed => InScale release ∧ elapsed ≤ time
  | .parked position start duration elapsed => InScale position ∧ InScale start ∧ elapsed ≤ duration

/-- A record's moves are in scale (R20). -/
abbrev MovesInScale (r : CueRecord) : Prop :=
  ∀ m ∈ r.moves, InScale m.position

/-- Every position the part holds is in scale (R3). -/
abbrev PositionsInScale (s : State) : Prop :=
  (∀ t : Target, InScale s.fade.rest[t]) ∧ (∀ t : Target, InScale s.fade.base[t])
    ∧ (∀ e ∈ s.fade.entries, EntryInScale e)
    ∧ (∀ t : Target, OwnerInScale s.own.owners[t]) ∧ (∀ i : Strip, InScale s.own.strips[i].lastPosition)
    ∧ (∀ r ∈ s.cues.table, MovesInScale r) ∧ (∀ r ∈ s.cues.edit, MovesInScale r)

/-! ### Cue Store (R21–R24) -/

/-- A record as the part stores it: number in range, at most 128 moves in ascending target order, at most 8 actions in
the order of R21 (R19–R21, R24). -/
abbrev RecordLegal (r : CueRecord) : Prop :=
  1 ≤ r.number ∧ r.number ≤ Config.maxCue
    ∧ r.moves.length ≤ Config.draftMoves ∧ r.moves.Pairwise (fun a b => a.target < b.target)
    ∧ r.actions.length ≤ Config.draftActions
    ∧ r.actions.Pairwise (fun a b => a.subject.place < b.subject.place)

/-- The table is in ascending number order with at most 500 records (R22), every record and the draft legal, and the
free count and the moves held make 6000 (R23). -/
abbrev CueStoreLegal (u : CueStore) : Prop :=
  u.table.Pairwise (fun a b => a.number < b.number) ∧ u.table.length ≤ Config.tableCapacity
    ∧ (∀ r ∈ u.table, RecordLegal r) ∧ (∀ r ∈ u.edit, RecordLegal r)
    ∧ u.poolFree + movesHeld u.table = Config.poolCapacity

/-! ### Playback and fades (R42, R43, R45, R69, R91) -/

/-- A target has at most one WAITING and one RUNNING entry (R69). -/
abbrev FadeTableKeyed (s : State) : Prop :=
  s.fade.entries.Pairwise fun a b => ¬(a.target = b.target ∧ a.isRunning = b.isRunning)

/-- STANDBY and RUNNING follow the fade table (R42). -/
abbrev StateFollowsTable (s : State) : Prop :=
  match s.play.state with
  | .standby => s.fade.entries = []
  | .running => s.fade.entries ≠ []
  | .held => True
  | .resolving _ => True

/-- The freeze is applied in HELD and released in STANDBY and RUNNING (R43). -/
abbrev FreezeFollowsState (s : State) : Prop :=
  match s.play.state with
  | .standby => s.play.freeze = false
  | .running => s.play.freeze = false
  | .held => s.play.freeze = true
  | .resolving _ => True

/-- The standby is a stored cue or absent (R45), and a resolution's goal is stored (R57, R99). -/
abbrev PointersStored (s : State) : Prop :=
  (∀ c ∈ s.play.standby, isStored s.cues.table c.number = true) ∧
    match s.play.state with
    | .resolving r => isStored s.cues.table r.goal = true
    | .standby => True
    | .running => True
    | .held => True

/-- A resolution in flight is at most 20 ms old (R91). -/
abbrev ResolutionWithinBound (s : State) : Prop :=
  ∀ age ∈ resolutionAge s, age ≤ Config.resolutionBound

/-! ### Ownership (R105, R106) -/

/-- The latched target of a strip (R105). -/
def latchedTarget (r : StripRecord) : Option Target :=
  match r.state with
  | .touched t _ => some t
  | .idle => none
  | .blocked => none

/-- A strip is TOUCHED with a target exactly while the target is OPERATOR with the strip (R105); with the surface not
present every strip is IDLE (R115). -/
abbrev StripsOwnTheirTargets (s : State) : Prop :=
  (∀ (i : Strip) (t : Target), latchedTarget s.own.strips[i] = some t ↔ s.own.owners[t] = .operator i)
    ∧ (s.surface.present = false → ∀ i : Strip, s.own.strips[i].state = .idle)

/-- Within one page a target appears at most once (R106). -/
abbrev PagesDistinct (s : State) : Prop :=
  ∀ (page : Fin 4) (i j : Strip) (t : Target),
    s.own.bank[page][i] = some t → s.own.bank[page][j] = some t → i = j

/-! ### Mutes (R126, R134–R139) -/

/-- A ramp record goes toward what the request asks: MUTING or MUTED while it is true, else OPENING or OPEN. -/
abbrev RampAgrees (request : Bool) (ramp : MuteRamp) : Prop :=
  match ramp with
  | .muting _ _ _ _ => request = true
  | .muted => request = true
  | .opened => request = false
  | .opening _ _ _ => request = false

/-- Every channel's ramp agrees with its request (R136, R138). -/
abbrev RampsFollowRequests (s : State) : Prop :=
  ∀ c : Channel, RampAgrees (s.mute.request c) s.mute.ramps[c]

/-- Every membership list holds at most 3 groups, ascending (R126). -/
abbrev MembershipsLegal (s : State) : Prop :=
  ∀ c : Channel, s.mute.groups[c].length ≤ 3 ∧ s.mute.groups[c].Pairwise (· < ·)

/-! ### Output map (R143, R144) -/

/-- An enabled window's fields are in range (R143). -/
abbrev WindowLegal (w : Window) : Prop :=
  1 ≤ w.first ∧ w.first ≤ w.last ∧ w.last ≤ 64 ∧ w.base + (w.last - w.first) ≤ 127

/-- Every enabled window is in range (R143), and no slot is fed by two channels (R144). -/
abbrev SlotsFedOnce (s : State) : Prop :=
  (∀ n : Fin 8, ∀ w ∈ s.out.windows[n], WindowLegal w)
    ∧ ∀ c d : Channel, ∀ slot, slotOf s.out.windows c = some slot → slotOf s.out.windows d = some slot → c = d

/-! ### Supervision (R169, R172) -/

/-- The link state is OFF exactly while supervision is disabled, and the counter is then 0 (R168, R171); else the counter
and T fix it up to the hysteresis of LOST (R169, R172); the question is never 0 (R170). -/
abbrev LinkStateLegal (s : State) : Prop :=
  s.sup.counter ≤ Config.maxErrors ∧ 1 ≤ s.sup.config.threshold ∧ s.sup.question ≠ 0 ∧
    match s.sup.link with
    | .off => s.sup.window = none ∧ s.sup.counter = 0
    | .linked => s.sup.window.isSome ∧ s.sup.counter = 0
    | .degraded => s.sup.window.isSome ∧ 0 < s.sup.counter ∧ s.sup.counter < s.sup.config.threshold
    | .lost => s.sup.window.isSome ∧ 0 < s.sup.counter

/-! ### Counters and the full reset (R164, R180, R2) -/

/-- The saturating counts stay at their limits (R164, R180). -/
abbrev CountsBounded (s : State) : Prop :=
  s.link.collisions ≤ Config.maxCollisions ∧ s.status.pulses ≤ Config.maxPulses

/-- While a full reset lasts every block is held at its initial value (R2). -/
abbrev HeldWhileInReset (s : State) : Prop :=
  s.inReset = true → s = heldInReset s

/-! ### What the statements speak of -/

/-- Outside a full reset with the receiver in HUNT, where every frame of the link begins (R157). -/
abbrev Listening (s : State) : Prop :=
  s.inReset = false ∧ s.link.port = .hunt

/-- A frame addressed to the unit itself arrives (R158). -/
abbrev Exact (f : OrderFrame) (s : State) : Prop :=
  Listening s ∧ f.address = s.link.address.setWidth 8

/-- An order's frame arrives that differs from the unit address, and only in bits set in the mask (R158). -/
abbrev Masked (f : OrderFrame) (s : State) : Prop :=
  Listening s ∧ f.address.toNat < 32 ∧ f.address.setWidth 5 ≠ s.link.address
    ∧ ∀ k < 5, f.address.getLsbD k ≠ s.link.address.getLsbD k → s.link.mask.getLsbD k = true

/-- After an order that was taken: DONE and its data pending, STATE_CHANGED noted (R162, R177). -/
def answered (kind : Byte) (f : OrderFrame) (data : List Byte) (before after : State) : State :=
  noteChanges before (pendAnswer kind f.tag doneCode data after)

/-- The order is taken: answered on an exact match, silent on a masked one (R160–R162). -/
def TakenAs (i : Instr) (kind : Byte) (f : OrderFrame) (s : State) (data : List Byte) (t : State) : Prop :=
  (Exact f s → exec i s = .next (answered kind f data s t)) ∧ (Masked f s → exec i s = .next (noteChanges s t))

/-- The order is refused: nothing changes but the answer pending, or GROUP_REFUSED on a masked match (R161, R162). -/
def RefusedAs (i : Instr) (kind : Byte) (f : OrderFrame) (s : State) (reason : Reason) (data : List Byte) : Prop :=
  (Exact f s → exec i s = .next (pendAnswer kind f.tag reason.code data s))
    ∧ (Masked f s → exec i s = .next (latch .groupRefused s))

/-- A reading order or HEARTBEAT is taken: answered on an exact match, ignored on a masked one (R161). -/
def ReadAs (i : Instr) (kind : Byte) (f : OrderFrame) (s : State) (data : List Byte) (t : State) : Prop :=
  (Exact f s → exec i s = .next (answered kind f data s t)) ∧ (Masked f s → exec i s = .next s)

/-- A reading order is refused: answered on an exact match, ignored on a masked one (R161). -/
def ReadRefusedAs (i : Instr) (kind : Byte) (f : OrderFrame) (s : State) (reason : Reason) : Prop :=
  (Exact f s → exec i s = .next (pendAnswer kind f.tag reason.code [] s)) ∧ (Masked f s → exec i s = .next s)

/-- A level code stands no higher than another, OFF counting as below −900 (R15). -/
def NoHigher : LevelCode → LevelCode → Prop
  | .off, _ => True
  | .level _, .off => False
  | .level v, .level w => v ≤ w

/-- The payload lengths of section 9.7; none for a kind not listed there. -/
def payloadLengths (kind : Byte) : List Nat :=
  match kind.toNat with
  | 0x10 | 0x15 | 0x26 | 0x27 | 0x35 | 0x36 | 0x37 | 0x52 | 0x71 | 0x72 | 0x73 => [2]
  | 0x11 | 0x12 | 0x14 | 0x16 | 0x17 | 0x18 | 0x23 | 0x24 | 0x29 | 0x62 | 0x70 => [0]
  | 0x13 | 0x42 => [4]
  | 0x20 => [8]
  | 0x21 => [8, 16, 24, 32, 40, 48]
  | 0x22 => [2, 4, 6, 8, 10, 12, 14, 16]
  | 0x25 | 0x28 | 0x30 | 0x40 => [3]
  | 0x31 | 0x34 | 0x50 => [5]
  | 0x32 | 0x33 | 0x41 | 0x51 | 0x60 | 0x74 => [1]
  | 0x38 => [6]
  | 0x61 => [11]
  | 0x75 => [7]
  | _ => []

/-- The kinds that a masked match ignores (R161): CUE READ, MOVE READ, TABLE INFO, TARGET READ, HEARTBEAT, STATUS
READ. -/
def ignoredWhenMasked : List Byte :=
  [0x27, 0x28, 0x29, 0x33, 0x60, 0x70]

/-- The kinds that LOCAL mode accepts (R174): the stop orders, the reading orders, HEARTBEAT, RECLAIM and the status
orders. -/
def acceptedInLocal : List Byte :=
  [0x16, 0x17, 0x27, 0x28, 0x29, 0x33, 0x60, 0x62, 0x70, 0x71, 0x72, 0x73]

/-- The computed standby: the next stored cue after a current cue, mark clear (R45). -/
def computedStandby (table : List CueRecord) (current : Nat) : Option StandbyCue :=
  (nextAfter table current).map fun n => { number := n, explicit := false }

/-- The standby after a change of the table (R45). -/
def standbyOver (table : List CueRecord) (p : Playback) : Option StandbyCue :=
  match p.standby with
  | some ⟨n, true⟩ => if isStored table n then some ⟨n, true⟩ else computedStandby table p.current
  | some ⟨_, false⟩ => computedStandby table p.current
  | none => computedStandby table p.current

/-- After a record was fired: moves, mute actions, current cue, standby, follow timer, state (R49, steps 2 to 5). -/
def firedState (r : CueRecord) (s : State) : State :=
  { s with
    fade := (fireMoves r s).fade, status := (fireMoves r s).status, mute := s.mute.applyActions r.actions
    play := { s.play with
      current := r.number, standby := computedStandby s.cues.table r.number, follow := r.followWait.map (· * 100)
      state := if (fireMoves r s).fade.entries = [] then .standby else .running } }

/-- After an entry of a cue left the table by completion, the fade engine then being `u`: CUE_DONE and the last
completed cue where it was the cue's last entry, and the playback state by the table (R81, R42). -/
def leftByCompletion (owner : Nat) (u : FadeEngine) (s : State) : State :=
  let last := owner ≠ 0 ∧ ∀ e ∈ u.entries, e.owner ≠ owner
  { s with
    fade := if last then { u with lastCompleted := owner } else u
    status := if last then s.status.record .cueDone else s.status
    play := { s.play with state := followTable u.entries s.play.state } }

end Sys2Proof.Safety
end

