-- ==== Sys2Proof/WellFormed.lean ====
section
/-! DEFINITION. Which commands name an event the ports can present: payload lengths the receiver lets through,
kinds that are unlisted, checks that really disagree. Every meaning is total, so nothing rests on it. -/

namespace Sys2Proof

/-- The frame's length byte passes the receiver (R157). -/
def OrderFrame.fits (f : OrderFrame) : Bool :=
  decide (f.payload.length ≤ maxPayload f.address)

/-- The frame is an order's: bit 7 of its address byte is clear (R155). -/
def OrderFrame.isOrder (f : OrderFrame) : Bool :=
  !f.address.getLsbD 7

/-- The bytes received begin with the port's lead, or continue a frame already begun. -/
def beginsFrame (lead : Byte) (received : List Byte) : Bool :=
  received.isEmpty || received.head? == some lead

/-- A byte abandons the frame: a framing fault, or a length byte too large for the address before it (R157). -/
def abandons (received : List Byte) (last : Byte) (framingFault : Bool) : Bool :=
  framingFault || (received.length == 4 && decide (maxPayload (received.getD 1 0) < last.toNat))

/-- An order's frame that the receiver lets through. -/
def OrderFrame.orderWf (f : OrderFrame) : Bool :=
  f.fits && f.isOrder

/-- Well-formed commands. -/
def Instr.wf : Instr → Bool
  | .go f | .hold f | .resume f | .goto f | .back f | .standbySet f | .stopSet f | .stopRelease f
  | .showReset f | .recordBegin f | .moveAdd f | .muteActionAdd f | .recordEnd f | .recordAbandon f
  | .recordLive f | .cueDelete f | .cueRead f | .moveRead f | .tableInfo f | .baseSet f | .park f | .unpark f
  | .targetRead f | .groupAssign f | .muteSet f | .muteGroupAssign f | .exemptSet f | .muteConfig f
  | .bankAssign f | .pageSelect f | .surfaceConfig f | .windowSet f | .windowClear f | .outputConfig f
  | .heartbeat f | .supervisionConfig f | .reclaim f | .statusRead f | .statusClear f | .statusMask f
  | .attentionConfig f | .addressMaskSet f | .playbackConfig f => f.orderWf
  | .unknownOrder kind f => !kindListed kind && f.orderWf
  | .ignoredFrame _ f => f.fits
  | .frameCheckFail kind f check => f.fits && decide (check ≠ frameCheck kind f)
  | .frameAbandon received last fault => beginsFrame linkLead received && abandons received last fault
  | .frameGapExpiry received => beginsFrame linkLead received
  | .surfaceFrameDropped scan words check => decide (check ≠ surfaceCheck scan words)
  | .surfaceGapExpiry received => beginsFrame surfaceLead received
  | .surfaceFramingFault received _ => beginsFrame surfaceLead received
  | .answerSend | .answerSent | .answerPendingCollision _ _ | .readbackCollision _ _ _ => true
  | .surfaceReport _ _ | .motorFrameSend | .surfaceLoss | .stuckTouchExpiry _ | .glideExpiry _ => true
  | .goLinePress | .followExpiry | .lockoutExpiry | .delayExpiry _ | .fadeCompletion _ => true
  | .resolutionCompletion | .rampArrival _ | .stopLineFall | .stopLineRise | .outputPeriodExpiry => true
  | .windowExpiry | .attnPulse | .fullReset | .fullResetEnd _ _ _ | .goLineRise => true

end Sys2Proof
end

