-- ==== Sys2Proof/Certificates/Slice0/Obligations.lean ====
section
/-! DEFINITION. The statements for the provers. `TakenAs`, `RefusedAs`, `ReadAs` and `ReadRefusedAs` (Safety.lean) say
what a command answers on an exact and on a masked match. -/

open Sys2Proof Sys2Proof.Machine Sys2Proof.Safety

/-! ### The machine and the Link Port -/

/-- The step with a command at the front of the queue is that command's meaning on the rest. -/
def Obligations.StepRunsFrontCommand : Prop :=
  ∀ (c : Instr) (rest : List Instr) (s : State),
    s.pending = c :: rest → step s = exec c { s with pending := rest }

/-- With no command and no event due, one millisecond passes: the clock rises by 1 (R1); every timer moves by it and
stands where it has arrived (R70, R108, R114, R118, R120, R135, R169; the idle step is the model's, log 1, the
standing log 14), the fade table and the follow timer alone only while the freeze is released (R43). -/
def Obligations.TimePasses : Prop :=
  ∀ s : State, s.pending = [] → s.inReset = false → forcedEvents s ++ freeEvents s = [] →
    ∃ t, step s = .next t ∧ t.pending = [] ∧ t.inReset = false ∧ t.clock = s.clock + 1
      ∧ (s.play.freeze = true → t.fade = s.fade ∧ t.play.follow = s.play.follow)
      ∧ (s.play.freeze = false →
          t.fade = { s.fade with entries := s.fade.entries.map fun e =>
            match e.phase with
            | .waiting delay => { e with phase := .waiting (delay - 1) }
            | .running start elapsed => { e with phase := .running start (min e.duration (elapsed + 1)) } }
          ∧ t.play.follow = s.play.follow.map (· - 1))
      ∧ t.play = { s.play with follow := t.play.follow, lockout := s.play.lockout.map (· + 1) }
      ∧ (∀ x : Target, t.own.owners[x] =
          match s.own.owners[x] with
          | .glide release time elapsed => .glide release time (min time (elapsed + 1))
          | .parked position start duration elapsed => .parked position start duration (min duration (elapsed + 1))
          | .auto => .auto
          | .operator i => .operator i)
      ∧ (∀ i : Strip, t.own.strips[i] =
          match s.own.strips[i].state with
          | .touched x (some k) => ⟨.touched x (some ⟨k.reference, k.elapsed + 1⟩), s.own.strips[i].lastPosition⟩
          | .touched _ none => s.own.strips[i]
          | .idle => s.own.strips[i]
          | .blocked => s.own.strips[i])
      ∧ t.own = { s.own with owners := t.own.owners, strips := t.own.strips }
      ∧ (∀ c : Channel, t.mute.ramps[c] =
          match s.mute.ramps[c] with
          | .muting start rate mark elapsed => .muting start rate mark (elapsed + 1)
          | .opening start rate elapsed => .opening start rate (elapsed + 1)
          | .opened => .opened
          | .muted => .muted)
      ∧ t.mute = { s.mute with ramps := t.mute.ramps }
      ∧ t.surface = { s.surface with silence := s.surface.silence.map (· - 1) }
      ∧ t.sup = { s.sup with window := s.sup.window.map fun w => ⟨w.length, min w.length (w.elapsed + 1)⟩ }
      ∧ t.cues = s.cues ∧ t.link = s.link ∧ t.out = s.out ∧ t.status = s.status

/-- With no command and an event due, no time passes: one of the due events is queued and nothing else changes but the
model's counter (log 1, 2). An event must fall exactly when its timer has arrived, and none but these must (R51, R53,
R70, R91, R114, R115, R118, R139, R150, R169); where a resolution or a port waits for an event, it may fall besides,
by a free value (R91, R157, R163, R165, R166, R180; log 3). -/
def Obligations.DueEventsQueued : Prop :=
  (∀ s : State, s.pending = [] → s.inReset = false → forcedEvents s ++ freeEvents s ≠ [] →
      ∃ e ∈ forcedEvents s ++ freeEvents s, step s = .next { s with pending := [e], choices := s.choices + 1 })
    ∧ (∀ s : State, s.pending = [] → s.inReset = true → step s = .next s)
    ∧ (∀ s : State,
      let must := forcedEvents s
      (.followExpiry ∈ must ↔ s.play.follow = some 0 ∧ (s.play.state = .standby ∨ s.play.state = .running))
      ∧ (.lockoutExpiry ∈ must ↔ ∃ elapsed, s.play.lockout = some elapsed ∧ s.play.config.lockoutTime ≤ elapsed)
      ∧ (∀ x, .delayExpiry x ∈ must ↔ ∃ e ∈ s.fade.entries, e.target = x ∧ e.phase = .waiting 0)
      ∧ (∀ x, .fadeCompletion x ∈ must ↔ ∃ e ∈ s.fade.entries, e.target = x
          ∧ ∃ start elapsed, e.phase = .running start elapsed ∧ e.duration ≤ elapsed)
      ∧ (∀ c : Channel, .rampArrival c ∈ must ↔
          (∃ start rate mark elapsed, s.mute.ramps[c] = .muting start rate mark elapsed
            ∧ 1000 - start ≤ 1000 * elapsed / rate)
          ∨ ∃ start rate elapsed, s.mute.ramps[c] = .opening start rate elapsed ∧ start ≤ 1000 * elapsed / rate)
      ∧ (∀ x : Target, .glideExpiry x ∈ must ↔
          ∃ release time elapsed, s.own.owners[x] = .glide release time elapsed ∧ time ≤ elapsed)
      ∧ (∀ i : Strip, .stuckTouchExpiry i ∈ must ↔
          ∃ x k, s.own.strips[i].state = .touched x (some k) ∧ s.own.stuckTime * 1000 ≤ k.elapsed)
      ∧ (.surfaceLoss ∈ must ↔ s.surface.silence = some 0)
      ∧ (.outputPeriodExpiry ∈ must ↔ s.out.next = some s.clock)
      ∧ (.windowExpiry ∈ must ↔ ∃ w, s.sup.window = some w ∧ w.length ≤ w.elapsed)
      ∧ (.resolutionCompletion ∈ must ↔ ∃ r, s.play.state = .resolving r ∧ 20 ≤ (s.clock - r.start).toNat)
      ∧ ∀ e ∈ must,
        e ∈ [.followExpiry, .lockoutExpiry, .surfaceLoss, .outputPeriodExpiry, .windowExpiry, .resolutionCompletion]
          ∨ (∃ x, e = .delayExpiry x ∨ e = .fadeCompletion x ∨ e = .glideExpiry x)
          ∨ (∃ c, e = .rampArrival c) ∨ ∃ i, e = .stuckTouchExpiry i)
    ∧ ∀ (s : State) (e : Instr),
      let now := fun (n : Nat) => Config.occursNow s.choices n = true
      e ∈ freeEvents s ↔
        (e = .resolutionCompletion ∧ now 0 ∧ ∃ r, s.play.state = .resolving r ∧ (s.clock - r.start).toNat < 20)
        ∨ (e = .answerSend ∧ now 1 ∧ ∃ a, s.link.port = .answerPending a)
        ∨ (e = .answerSent ∧ now 2 ∧ ∃ a, s.link.port = .sending a)
        ∨ (e = .frameGapExpiry [] ∧ now 3 ∧ ∃ g, s.link.port = .receive g)
        ∨ (e = .surfaceGapExpiry [] ∧ now 4 ∧ ∃ g, s.surface.rx = .receive g)
        ∨ (e = .motorFrameSend ∧ now 5 ∧ s.surface.motorQueue ≠ [])
        ∨ (e = .attnPulse ∧ now 6 ∧ s.status.mode = .pulse ∧ 0 < s.status.pulses)

/-- Every well-formed order is decoded from the bytes of its frame (R155, R156, sections 9.6 and 9.7). -/
def Obligations.OrdersRoundTrip : Prop :=
  ∀ (i : Instr) (bytes : List Byte), i.wf = true → encode i = some bytes → decodeFrame bytes = some i

/-- The receiver, given a frame byte by byte in HUNT, does what the frame's command does (R157, R158, R160); a frame
that does not fit the name of its row IGNORED_FRAME or UNKNOWN_ORDER acts by its content (log 20). -/
def Obligations.ReceiverTakesWholeFrames : Prop :=
  ∀ (i : Instr) (kind : Byte) (f : OrderFrame) (s : State),
    i.order? = some (kind, f) ∨ i = .unknownOrder kind f ∨ i = .ignoredFrame kind f →
    f.fits = true → Listening s →
    exec i s = .next (linkBytes (frameBytes kind f) s)

/-- Address matching; a frame that matches no address changes nothing, whatever order it carries (R158); a whole frame
in the port's other states: in RECEIVE as in HUNT, in ANSWER PENDING as in HUNT after the answer is lost, in SENDING
not taken (R163; log 6). -/
def Obligations.FramesFindTheUnit : Prop :=
  ((∀ (unit mask : Address) (a : Byte),
      (matchAddress unit mask a = .exact ↔ a.toNat = unit.toNat)
        ∧ (matchAddress unit mask a = .masked ↔ a.toNat < 32 ∧ a.toNat ≠ unit.toNat
            ∧ ∀ k < 5, a.getLsbD k ≠ unit.getLsbD k → mask.getLsbD k = true))
      ∧ ∀ (i : Instr) (kind : Byte) (f : OrderFrame) (s : State),
        i.order? = some (kind, f) ∨ i = .ignoredFrame kind f →
        f.fits = true → Listening s → matchAddress s.link.address s.link.mask f.address = .none →
        exec i s = .next s)
    ∧ ∀ (i : Instr) (kind : Byte) (f : OrderFrame) (s : State), i.order? = some (kind, f) → s.inReset = false →
      (∀ g, s.link.port = .receive g → exec i s = exec i (portHunt s))
        ∧ (∀ a, s.link.port = .answerPending a → exec i s = exec i (loseAnswer s))
        ∧ ∀ a, s.link.port = .sending a → exec i s = .next s

/-- The checks that every order shares: an unlisted kind is UNKNOWN, a wrong length is LENGTH, and in LOCAL mode every
kind but the accepted ones is LOCAL, in that order (R160, R174). -/
def Obligations.SharedChecks : Prop :=
  (∀ (kind : Byte) (f : OrderFrame) (s : State), kindListed kind = false → f.payload.length ≤ 48 →
    RefusedAs (.unknownOrder kind f) kind f s .unknown [])
    ∧ (∀ (i : Instr) (kind : Byte) (f : OrderFrame) (s : State), i.order? = some (kind, f) → f.payload.length ≤ 48 →
        f.payload.length ∉ payloadLengths kind →
        if kind ∈ ignoredWhenMasked then ReadRefusedAs i kind f s .length else RefusedAs i kind f s .length [])
    ∧ ∀ (i : Instr) (kind : Byte) (f : OrderFrame) (s : State), i.order? = some (kind, f) →
        f.payload.length ∈ payloadLengths kind → s.sup.localMode = true → kind ∉ acceptedInLocal →
        RefusedAs i kind f s .localMode []

/-- Damaged frames are dropped with FRAME_ERROR latched and the receiver in HUNT; in HUNT a faulty byte and a gap do
nothing (R157). The answer is sent once and the pair released; a byte in ANSWER PENDING or a differing read-back in
SENDING loses it, counts a collision and latches FRAME_ERROR (R163, R164). -/
def Obligations.FramesLost : Prop :=
  ((∀ kind f check s, Listening s → check ≠ frameCheck kind f →
      exec (.frameCheckFail kind f check) s = .next (latch .frameError s))
      ∧ (∀ gathered last s, s.inReset = false → s.link.port = .receive gathered →
          exec (.frameAbandon [] last true) s = .next (latch .frameError (portHunt s))
            ∧ exec (.frameGapExpiry []) s = .next (latch .frameError (portHunt s)))
      ∧ (∀ address kind tag length s, Listening s → maxPayload address < length.toNat →
          exec (.frameAbandon [linkLead, address, kind, tag] length false) s = .next (latch .frameError s))
      ∧ (∀ bytes s, Listening s → bytes.length < 4 →
          exec (.frameGapExpiry (linkLead :: bytes)) s = .next (latch .frameError s)
            ∧ ∀ last, exec (.frameAbandon (linkLead :: bytes) last true) s = .next (latch .frameError s))
      ∧ ∀ last s, Listening s →
          exec (.frameAbandon [] last true) s = .next s ∧ exec (.frameGapExpiry []) s = .next s)
    ∧ ∀ (a : LinkAnswer) (s : State), s.inReset = false →
      (s.link.port = .answerPending a →
        exec .answerSend s = .next { s with link := { s.link with port := .sending a } }
          ∧ ∀ b fault, exec (.answerPendingCollision b fault) s =
            .next (latch .frameError { s with link := { s.link with
              port := if b = linkLead ∧ fault = false then .receive [] else .hunt
              collisions := min 65535 (s.link.collisions + 1) } }))
        ∧ (s.link.port = .sending a →
          exec .answerSent s = .next { s with link := { s.link with port := .hunt } }
            ∧ ∀ index sent b fault, a.bytes[index]? = some sent →
                (b ≠ sent ∨ fault = true →
                  exec (.readbackCollision index b fault) s = .next (latch .frameError { s with link := { s.link with
                    port := .hunt, collisions := min 65535 (s.link.collisions + 1) } }))
                ∧ (b = sent → fault = false → exec (.readbackCollision index b fault) s = .next s))

/-- The layouts of the frames (sections 9.6, 9.9): high byte first (R154), the check (R156), the answer from the unit
address, the order's kind and tag, the result and the data (R162), the motor frame (R166), the gain frame with its
level codes (R167) and the surface report (R165). -/
def Obligations.FramesLaidOut : Prop :=
  (∀ w : Word16, wordBytes w = [BitVec.ofNat 8 (w.toNat / 256), BitVec.ofNat 8 w.toNat])
    ∧ (∀ n : Nat, nat8 n = BitVec.ofNat 8 n ∧ nat16 n = [BitVec.ofNat 8 (n / 256), BitVec.ofNat 8 n]
        ∧ nat32 n = nat16 (n / 65536) ++ nat16 n)
    ∧ crc16 [] = 0xFFFF#16
    ∧ (∀ (bytes : List Byte) (b : Byte), crc16 (bytes ++ [b]) =
        Nat.repeat (fun r : Word16 => if r.getLsbD 15 then (r <<< 1) ^^^ 0x1021#16 else r <<< 1) 8
          (crc16 bytes ^^^ (b.setWidth 16 <<< 8)))
    ∧ crc16 [0x31, 0x32, 0x33, 0x34, 0x35, 0x36, 0x37, 0x38, 0x39] = 0x29B1#16
    ∧ (∀ (kind tag result : Byte) (data : List Byte) (s : State), ∃ a : LinkAnswer,
        let covered := [0x80#8 ||| s.link.address.setWidth 8, kind, tag, nat8 (data.length + 1), result] ++ data
        pendAnswer kind tag result data s = { s with link := { s.link with port := .answerPending a } }
          ∧ a.payload = result :: data ∧ a.bytes = 0xA5#8 :: covered ++ wordBytes (crc16 covered))
    ∧ (∀ m : MotorFrame,
        let body := [m.scan, nat8 m.page.val] ++ m.words.toList.flatMap fun w =>
          match w with
          | .leave => [0xFF#8, 0xFF#8]
          | .drive position => nat16 position
        m.bytes = 0x3C#8 :: body ++ wordBytes (crc16 body) ∧ m.bytes.length = 37)
    ∧ (∀ g : GainFrame,
        let body := [g.counter] ++ g.codes.toList.flatMap fun c => wordBytes c.word
        g.bytes = 0x96#8 :: body ++ wordBytes (crc16 body) ∧ g.bytes.length = 260)
    ∧ LevelCode.off.word = 0x8000#16
    ∧ (∀ v : Int, -900 ≤ v → v ≤ 100 → (LevelCode.level v).word.toInt = v)
    ∧ ∀ (scan : Byte) (words : Vector Word16 16),
        let body := [scan] ++ words.toList.flatMap wordBytes
        surfaceLead :: reportBody scan words = 0xC3#8 :: body ++ wordBytes (crc16 body)

/-- The codings of section 9.8 and of the records in answers (sections 9.6, 9.7), as they are written and as they are
read: a code that names nothing is read as nothing. -/
def Obligations.CodesAreTheManuals : Prop :=
  (doneCode = 0
      ∧ [Reason.busy, .held, .endOfCues, .wrongCue, .lockout, .noCue, .poolFull, .tableFull, .moveLimit, .muteLimit,
          .editOpen, .noEdit, .range, .duplicate, .slotClash, .notParked, .localMode, .notLinked, .unknown,
          .length].map Reason.code = [1, 2, 3, 4, 5, 6, 7, 8, 9, 10, 11, 12, 13, 14, 15, 16, 17, 18, 19, 20]
      ∧ [LinkState.off, .linked, .degraded, .lost].map LinkState.code = [0, 1, 2, 3]
      ∧ [Verdict.good, .early, .wrong].map Verdict.code = [0, 1, 2]
      ∧ [PlayState.standby, .running, .held].map PlayState.code = [0, 1, 2] ∧ (∀ r, (PlayState.resolving r).code = 3)
      ∧ [CueKind.track, .block].map CueKind.code = [0, 1]
      ∧ [Curve.linear, .slow, .fast, .s].map Curve.code = [0, 1, 2, 3]
      ∧ [MuteState.opened, .mute].map MuteState.code = [0, 1]
      ∧ (∀ c, (MuteSubject.channel c).code = nat8 (c.val + 1)) ∧ (∀ m, (MuteSubject.group m).code = nat8 (m.val + 65))
      ∧ MuteRamp.opened.code = 0 ∧ (∀ a b c d, (MuteRamp.muting a b c d).code = 1) ∧ MuteRamp.muted.code = 2
      ∧ (∀ a b c, (MuteRamp.opening a b c).code = 3)
      ∧ (∀ q : Present, (List.range 8).map q.code.getLsbD =
          [q.surface, q.held, q.resolving, q.stopActive, q.localMode, q.editOpen, false, false])
      ∧ [Event.cueDone, .endReached, .lockSkip, .touchStuck, .surfaceLost, .frameError, .groupRefused, .goIgnored,
          .resolveDone, .linkDegraded, .linkLost, .noSafeCue, .stateChanged].map Event.index = List.range 13
      ∧ (∀ (u : StatusUnit) (e : Event),
          u.latched e = u.latch.getLsbD e.index ∧ u.masked e = u.mask.getLsbD e.index))
    ∧ (ownerFields .auto = (0, 0, 0, 0) ∧ (∀ i : Strip, ownerFields (.operator i) = (1, nat8 (i.val + 1), 0, 0))
      ∧ (∀ release time elapsed, ownerFields (.glide release time elapsed) = (2, 0, release, time - elapsed))
      ∧ (∀ position start duration elapsed,
          ownerFields (.parked position start duration elapsed) = (3, 0, position, duration - elapsed))
      ∧ (∀ (e : FadeEntry) (delay : Nat), e.phase = .waiting delay →
          entryBytes e = 0 :: nat16 e.owner ++ nat16 e.goal ++ nat32 delay)
      ∧ (∀ (e : FadeEntry) (start elapsed : Nat), e.phase = .running start elapsed →
          entryBytes e = 1 :: nat16 e.owner ++ nat16 e.goal ++ nat32 (e.duration - elapsed))
      ∧ (∀ m : Move, moveBytes m = nat8 (m.target.val + 1) :: nat16 m.position ++ nat16 (m.fade.getD 65535)
          ++ nat16 (m.delay.getD 65535) ++ [(m.curve.map Curve.code).getD 255])
      ∧ ∀ a : MuteAction, actionBytes a = [a.subject.code, a.state.code])
    ∧ (∀ (p : List Byte) (i : Nat), byteAt p i = (p.getD i 0).toNat ∧ wordAt p i = 256 * byteAt p i + byteAt p (i + 1))
    ∧ ∀ k : Nat,
      (∀ t : Target, targetOf k = some t ↔ k = t.val + 1) ∧ (∀ c : Channel, channelOf k = some c ↔ k = c.val + 1)
      ∧ (∀ g : Group, groupOf k = some g ↔ k = g.val + 1) ∧ (∀ i : Strip, stripOf k = some i ↔ k = i.val + 1)
      ∧ (∀ page : Fin 4, pageOf k = some page ↔ k = page.val) ∧ (∀ n : Fin 8, windowOf k = some n ↔ k = n.val)
      ∧ (∀ entry : Option Target, bankTarget k = some entry ↔
          (k = 255 ∧ entry = none) ∨ ∃ t : Target, k = t.val + 1 ∧ entry = some t)
      ∧ (∀ kind, kindOf k = some kind ↔ k = kind.code.toNat) ∧ (∀ curve, curveOf k = some curve ↔ k = curve.code.toNat)
      ∧ (∀ m, muteStateOf k = some m ↔ k = m.code.toNat) ∧ (∀ b, flagOf k = some b ↔ k = b.toNat)
      ∧ (∀ u, subjectOf k = some u ↔ k = u.code.toNat)
      ∧ (∀ a, actionOf k = some a ↔ k = match a with | .report => 0 | .localMode => 1 | .safe => 2)
      ∧ (∀ mode, modeOf k = some mode ↔ k = match mode with | .level => 0 | .pulse => 1)
      ∧ (∀ policy, policyOf k = some policy ↔ k = match policy with | .orderClears => 0 | .readClears => 1)
      ∧ (∀ events, eventSetOf k = some events ↔ k = events.toNat)
      ∧ timeField k = if k = 65535 then none else some (min k 9999)

/-- A full reset puts every block at its initial value with the output stopped and the lines released; until its end
no command but another full reset has an effect. At its end: clock 0, the address from the pins, the GO line at its
level; a STOP line low then makes show-stop active, so the show starts HELD and muting at the stop rate (R2, R64,
R132, R159). The queue and the counter of free values are the model's own and are kept (log 17, 18). -/
def Obligations.FullResetTaken : Prop :=
  ((∀ s : State, exec .fullReset s = .next { State.reset with
        pending := s.pending, choices := s.choices, inReset := true, out := { OutputUnit.reset with next := none } })
      ∧ (∀ s : State, s.inReset = true → slde s = .low ∧ attnLine s = .released)
      ∧ ∀ (i : Instr) (s : State), s.inReset = true → i ≠ .fullReset → (∀ p g l, i ≠ .fullResetEnd p g l) →
          exec i s = .next s)
    ∧ ∀ (pins : Address) (goLine : Level) (s : State), s.inReset = true →
      exec (.fullResetEnd pins goLine .high) s = .next { State.reset with
        pending := s.pending, choices := s.choices, link := { LinkPort.reset with address := pins }
        play := { Playback.reset with goLine := goLine } }
      ∧ ∃ t, exec (.fullResetEnd pins goLine .low) s = .next t
          ∧ t.inReset = false ∧ t.clock = 0 ∧ t.link = { LinkPort.reset with address := pins }
          ∧ t.play = { Playback.reset with goLine := goLine, state := .held, freeze := true }
          ∧ t.mute.stopActive = true ∧ (∀ c : Channel, t.mute.ramps[c] = .muting 0 10 true 0)
          ∧ t.cues = .reset ∧ t.fade = .reset ∧ t.own = .reset ∧ t.out = .reset ∧ t.sup = .reset
          ∧ t.status.latch = Event.stateChanged.bit

/-- The values after a full reset that the manual gives, which stand while the STOP line is high at its end (log 9):
R1, R41, R64, R85, R125, R142, R149, R150, R157, R159, R164, R176, R179, R180, R181. That the surface receiver is in
HUNT too with no motor frame waiting is the model's reading (log 28). -/
def Obligations.ResetValues : Prop :=
  let s := State.reset
  s.clock = 0 ∧ s.cues = { table := [], poolFree := 6000, edit := none }
    ∧ s.link.mask = 0 ∧ s.link.port = .hunt ∧ s.link.collisions = 0
    ∧ s.play.state = .standby ∧ s.play.freeze = false ∧ s.play.current = 0 ∧ s.play.standby = none
    ∧ s.play.follow = none ∧ s.play.lockout = none
    ∧ s.play.config = { lockoutTime := 300, gotoTime := 20, backTime := 20, localGo := true }
    ∧ (∀ t : Target, s.fade.rest[t] = s.fade.base[t] ∧ s.fade.base[t] = if t.val < 64 then 0 else 768)
    ∧ s.fade.entries = [] ∧ s.fade.lastCompleted = 0
    ∧ (∀ t : Target, s.own.owners[t] = .auto) ∧ (∀ i : Strip, s.own.strips[i] = ⟨.idle, 0⟩)
    ∧ (∀ (p : Fin 4) (i : Strip), s.own.bank[p][i] = none)
    ∧ s.own.page = 0 ∧ s.own.stuckTime = 180 ∧ s.own.glideTime = 500 ∧ s.surface.present = false
    ∧ s.surface.rx = .hunt ∧ s.surface.motorQueue = []
    ∧ (∀ c : Channel, s.mute.groups[c] = [] ∧ s.mute.muteSets[c] = 0 ∧ s.mute.exempt[c] = false
        ∧ s.mute.flags[c] = false ∧ s.mute.ramps[c] = .opened)
    ∧ (∀ m : MuteGroup, s.mute.groupStates[m] = .opened) ∧ s.mute.stopFlag = false ∧ s.mute.stopActive = false
    ∧ s.mute.times = { mute := 20, unmute := 20, stop := 10 }
    ∧ (∀ n : Fin 8, s.out.windows[n] = none) ∧ s.out.period = 2 ∧ s.out.enabled = true ∧ s.out.next = some 2
    ∧ s.out.counter = 0 ∧ s.sup.window = none ∧ s.sup.link = .off ∧ s.sup.counter = 0 ∧ s.sup.question = 1
    ∧ s.sup.localMode = false
    ∧ s.sup.config = { enable := false, window := 500, threshold := 4, action := .report, safeCue := 0, safeTime := 20
                       key := 0, seed := 0 }
    ∧ s.status = { latch := 0, mask := 0, mode := .level, policy := .orderClears, pulses := 0 }
    ∧ attnLine s = .released

/-! ### Playback -/

/-- A GO order that passes its checks fires the standby: moves and mute actions (as FiredMoves says), pointers, follow
timer, lockout and state, answered with the cue fired and the new standby (R49). -/
def Obligations.GoFiresTheStandby : Prop :=
  ∀ (f : OrderFrame) (s : State) (c : StandbyCue) (r : CueRecord), f.payload.length = 2 → s.sup.localMode = false →
    s.play.state = .standby ∨ s.play.state = .running →
    s.play.standby = some c → findCue s.cues.table c.number = some r →
    wordAt f.payload 0 = 0 ∨ wordAt f.payload 0 = c.number → s.play.lockoutRunning = false →
    let fired := firedState r s
    let t := { fired with play := { fired.play with lockout := some 0 } }
    TakenAs (.go f) 0x10 f s (nat16 r.number ++ nat16 (standbyNumber t)) t

/-- The checks of a GO order in their order: HELD, BUSY, END, WRONG_CUE, LOCKOUT (R48). That the standby number after
WRONG_CUE takes two bytes is the model's reading (log 8). -/
def Obligations.GoRefused : Prop :=
  ∀ (f : OrderFrame) (s : State), f.payload.length = 2 → s.sup.localMode = false →
    (s.play.state = .held → RefusedAs (.go f) 0x10 f s .held [])
      ∧ (s.play.state.isResolving = true → RefusedAs (.go f) 0x10 f s .busy [])
      ∧ (s.play.state = .standby ∨ s.play.state = .running →
          (s.play.standby = none →
            (Exact f s → exec (.go f) s = .next (pendAnswer 0x10 f.tag 3 [] (latch .endReached s)))
              ∧ (Masked f s → exec (.go f) s = .next (latch .groupRefused (latch .endReached s))))
          ∧ ∀ c r, s.play.standby = some c → findCue s.cues.table c.number = some r →
            (wordAt f.payload 0 ≠ 0 → wordAt f.payload 0 ≠ c.number →
              RefusedAs (.go f) 0x10 f s .wrongCue (nat16 c.number))
            ∧ (wordAt f.payload 0 = 0 ∨ wordAt f.payload 0 = c.number → s.play.lockoutRunning = true →
              RefusedAs (.go f) 0x10 f s .lockout []))

/-- HOLD in each playback state, and its LOCAL refusal; held, a GO is refused with HELD and the follow timer stands
(R55). -/
def Obligations.HoldTaken : Prop :=
  ∀ (f : OrderFrame) (s : State), f.payload = [] →
    (s.sup.localMode = true → RefusedAs (.hold f) 0x11 f s .localMode [])
      ∧ (s.sup.localMode = false →
        (s.play.state = .standby ∨ s.play.state = .running →
          TakenAs (.hold f) 0x11 f s [2] { s with play := { s.play with state := .held, freeze := true } })
        ∧ (s.play.state = .held → TakenAs (.hold f) 0x11 f s [2] s)
        ∧ ∀ r, s.play.state = .resolving r →
          TakenAs (.hold f) 0x11 f s [3]
            { s with play := { s.play with state := .resolving { r with holdRequested := true } } })
      ∧ (s.play.freeze = true → (advance s).fade = s.fade ∧ (advance s).play.follow = s.play.follow)
      ∧ ∀ g : OrderFrame, g.payload.length = 2 → s.sup.localMode = false → s.play.state = .held →
          RefusedAs (.go g) 0x10 g s .held []

/-- RESUME in each playback state, show-stop active or not, and its LOCAL refusal; with the freeze released, entries
and follow timer run on from where they stood (R56). -/
def Obligations.ResumeTaken : Prop :=
  ∀ (f : OrderFrame) (s : State), f.payload = [] →
    (s.sup.localMode = true → RefusedAs (.resume f) 0x12 f s .localMode [])
    ∧ (s.sup.localMode = false →
      (s.play.state = .held →
        let empty := s.fade.entries.isEmpty
        TakenAs (.resume f) 0x12 f s [if empty then 0 else 1]
          { s with play := { s.play with state := if empty then .standby else .running, freeze := false } })
      ∧ (∀ r, s.play.state = .resolving r → TakenAs (.resume f) 0x12 f s [3]
          { s with play := { s.play with state := .resolving { r with holdRequested := false }, freeze := false } })
      ∧ (s.play.state = .standby → TakenAs (.resume f) 0x12 f s [0] s)
      ∧ (s.play.state = .running → TakenAs (.resume f) 0x12 f s [1] s))
    ∧ (s.play.freeze = false →
        (advance s).fade = { s.fade with entries := s.fade.entries.map FadeEntry.tick }
          ∧ (advance s).play.follow = s.play.follow.map (· - 1))

/-- GOTO and BACK start a resolution and stop the follow timer, leaving freeze, current cue and standby; STANDBY SET
names an explicit standby; PLAYBACK CONFIG stores the clamped configuration, a running lockout going on and a run-out
one not running again; their refusals (R46, R51, R57, R58, R63, R90). -/
def Obligations.JumpsAndStandbyTaken : Prop :=
  (∀ (f : OrderFrame) (s : State), s.sup.localMode = false →
      (f.payload.length = 4 →
        let goal := wordAt f.payload 0
        let given := wordAt f.payload 2
        let time := if given = 65535 then s.play.config.gotoTime else min given 9999
        (s.play.state.isResolving = true → RefusedAs (.goto f) 0x13 f s .busy [])
        ∧ (s.play.state.isResolving = false → isStored s.cues.table goal = false →
            RefusedAs (.goto f) 0x13 f s .noCue [])
        ∧ (s.play.state.isResolving = false → isStored s.cues.table goal = true →
            TakenAs (.goto f) 0x13 f s []
              { s with play := { s.play with follow := none, state := .resolving ⟨goal, time, s.clock, false⟩ } }))
      ∧ (f.payload = [] →
        (s.play.state.isResolving = true → RefusedAs (.back f) 0x14 f s .busy [])
        ∧ (s.play.state.isResolving = false → (∀ r ∈ s.cues.table, s.play.current ≤ r.number) →
            RefusedAs (.back f) 0x14 f s .noCue [])
        ∧ ∀ goal, s.play.state.isResolving = false → lastBefore s.cues.table s.play.current = some goal →
            TakenAs (.back f) 0x14 f s (nat16 goal) { s with play := { s.play with
              follow := none, state := .resolving ⟨goal, s.play.config.backTime, s.clock, false⟩ } }))
    ∧ ∀ (f : OrderFrame) (s : State), s.sup.localMode = false →
      (f.payload.length = 2 →
        let n := wordAt f.payload 0
        (s.play.state.isResolving = true → RefusedAs (.standbySet f) 0x15 f s .busy [])
        ∧ (s.play.state.isResolving = false → isStored s.cues.table n = false →
            RefusedAs (.standbySet f) 0x15 f s .noCue [])
        ∧ (s.play.state.isResolving = false → isStored s.cues.table n = true →
            TakenAs (.standbySet f) 0x15 f s (nat16 n)
              { s with play := { s.play with standby := some { number := n, explicit := true } } }))
      ∧ (f.payload.length = 7 →
        let p := f.payload
        (1 < byteAt p 6 → RefusedAs (.playbackConfig f) 0x75 f s .range [])
        ∧ (byteAt p 6 ≤ 1 → TakenAs (.playbackConfig f) 0x75 f s [] { s with play := { s.play with
            lockout := match s.play.lockout with
              | some elapsed => if elapsed < s.play.config.lockoutTime then some elapsed else none
              | none => none
            config := { lockoutTime := min 2000 (wordAt p 0), gotoTime := min (wordAt p 2) 9999
                        backTime := min (wordAt p 4) 9999, localGo := byteAt p 6 == 1 } } }))

/-- The GO line: a fall is a press only from high; it is a GO when local GO is enabled or in LOCAL mode, fires with
the lockout restarted, and a refused press latches GO_IGNORED, with END_REACHED where no standby is (R50, R48); that a
fall of a line already low changes nothing is the model's reading (log 26). The lockout runs while less than its time
has passed (R51). The follow timer at 0 in STANDBY or RUNNING fires the standby without touching the lockout, or
latches END_REACHED; the lockout runs out at its time (R53, R51). -/
def Obligations.GoLineAndTimers : Prop :=
  (∀ s : State, s.inReset = false →
      exec .goLineRise s = .next { s with play := { s.play with goLine := .high } }
      ∧ (s.play.goLine = .low → exec .goLinePress s = .next s)
      ∧ (s.play.goLine = .high →
        let u := { s with play := { s.play with goLine := .low } }
        (s.play.config.localGo = false → s.sup.localMode = false → exec .goLinePress s = .next u)
        ∧ (s.play.config.localGo = true ∨ s.sup.localMode = true →
          (s.play.state = .held ∨ s.play.state.isResolving = true →
            exec .goLinePress s = .next (latch .goIgnored u))
          ∧ (s.play.state = .standby ∨ s.play.state = .running →
            (s.play.standby = none → exec .goLinePress s = .next (latch .goIgnored (latch .endReached u)))
            ∧ ∀ c r, s.play.standby = some c → findCue s.cues.table c.number = some r →
              (s.play.lockoutRunning = true → exec .goLinePress s = .next (latch .goIgnored u))
              ∧ (s.play.lockoutRunning = false →
                let fired := firedState r u
                exec .goLinePress s = .next { fired with play := { fired.play with lockout := some 0 } })))))
    ∧ (∀ p : Playback, p.lockoutRunning = true ↔ ∃ elapsed, p.lockout = some elapsed ∧ elapsed < p.config.lockoutTime)
      ∧ ∀ s : State, s.inReset = false →
        (s.play.follow = some 0 → s.play.state = .standby ∨ s.play.state = .running →
          let u := { s with play := { s.play with follow := none } }
          (s.play.standby = none → exec .followExpiry s = .next (latch .endReached u))
          ∧ ∀ c r, s.play.standby = some c → findCue s.cues.table c.number = some r →
              exec .followExpiry s = .next (firedState r s) ∧ (firedState r s).play.lockout = s.play.lockout)
        ∧ ∀ elapsed, s.play.lockout = some elapsed → s.play.config.lockoutTime ≤ elapsed →
            exec .lockoutExpiry s = .next { s with play := { s.play with lockout := none } }

/-- SHOW RESET: playback, fade table, parks, mutes, edit buffer and latch return to their start, one change, and the
programming, the lockout and the configuration stay (R62, R41, R85, R125, R142, R179). -/
def Obligations.ShowResetTaken : Prop :=
  ∀ (f : OrderFrame) (s : State), f.payload = [] → s.sup.localMode = false →
    ∃ t, TakenAs (.showReset f) 0x18 f s [] t
      ∧ t.play = { s.play with
          state := .standby, freeze := false, current := 0, follow := none
          standby := computedStandby s.cues.table 0 }
      ∧ t.fade = { s.fade with rest := s.fade.base, entries := [], lastCompleted := 0 }
      ∧ t.cues = { s.cues with edit := none }
      ∧ (∀ x : Target, t.own.owners[x] =
          match s.own.owners[x] with
          | .parked position start duration elapsed =>
            if s.own.glideTime = 0 then .auto
            else .glide (rampValue position start duration elapsed) s.own.glideTime 0
          | o => o)
      ∧ t.own = { s.own with owners := t.own.owners }
      ∧ (∀ c : Channel, t.mute.flags[c] = false) ∧ (∀ m : MuteGroup, t.mute.groupStates[m] = .opened)
      ∧ (∀ c : Channel, t.mute.ramps[c] = rampAfter s.mute { t.mute with ramps := s.mute.ramps } c)
      ∧ t.mute = { s.mute with flags := t.mute.flags, groupStates := t.mute.groupStates, ramps := t.mute.ramps }
      ∧ t.status.latch = (if present s = present t then 0 else Event.stateChanged.bit)
      ∧ t.status.mask = s.status.mask ∧ t.status.mode = s.status.mode ∧ t.status.policy = s.status.policy
      ∧ t.status.pulses = (if present s ≠ present t ∧ s.status.latched .stateChanged = false
          then (s.status.countPulse .stateChanged).pulses else s.status.pulses)
      ∧ t.surface = s.surface ∧ t.out = s.out ∧ t.sup = s.sup ∧ t.link = s.link ∧ t.clock = s.clock

/-! ### The cue table -/

/-- The cue table in number order (R22): the record stored under a number, the lookups next after and last before,
which need no stored number, and a record entering and leaving, the rest keeping their order. -/
def Obligations.TableLookups : Prop :=
  ∀ table : List CueRecord, table.Pairwise (fun a b => a.number < b.number) →
    (∀ n r, findCue table n = some r ↔ r ∈ table ∧ r.number = n)
    ∧ (∀ n, isStored table n = true ↔ ∃ r ∈ table, r.number = n)
    ∧ (∀ n k, nextAfter table n = some k ↔
        n < k ∧ (∃ r ∈ table, r.number = k) ∧ ∀ r ∈ table, n < r.number → k ≤ r.number)
    ∧ (∀ n, nextAfter table n = none ↔ ∀ r ∈ table, r.number ≤ n)
    ∧ (∀ n k, lastBefore table n = some k ↔
        k < n ∧ (∃ r ∈ table, r.number = k) ∧ ∀ r ∈ table, r.number < n → r.number ≤ k)
    ∧ (∀ n, lastBefore table n = none ↔ ∀ r ∈ table, n ≤ r.number)
    ∧ (∀ r, (insertCue r table).Pairwise (fun a b => a.number < b.number)
        ∧ (∀ x, x ∈ insertCue r table ↔ x = r ∨ (x ∈ table ∧ x.number ≠ r.number))
        ∧ (insertCue r table).length = if isStored table r.number then table.length else table.length + 1)
    ∧ ∀ n, removeCue n table = table.filter (fun r => decide (r.number ≠ n))
        ∧ (removeCue n table).length = if isStored table n then table.length - 1 else table.length

/-- RECORD BEGIN opens the buffer with the clamped fields, or refuses, an open draft being kept (R26). RECORD ABANDON
closes an open buffer, in every playback state, and touches neither table nor pool; on a closed buffer it is refused
with NO_EDIT (R32). -/
def Obligations.BufferOpensAndCloses : Prop :=
  (∀ (f : OrderFrame) (s : State), f.payload.length = 8 → s.sup.localMode = false →
      let p := f.payload
      let n := wordAt p 0
      (s.cues.edit ≠ none → RefusedAs (.recordBegin f) 0x20 f s .editOpen [])
      ∧ (s.cues.edit = none → n = 0 ∨ 60000 < n ∨ 1 < byteAt p 2 ∨ 3 < byteAt p 5 →
          RefusedAs (.recordBegin f) 0x20 f s .range [])
      ∧ ∀ kind curve, s.cues.edit = none → 1 ≤ n → n ≤ 60000 → kindOf (byteAt p 2) = some kind →
          curveOf (byteAt p 5) = some curve →
          let draft : CueRecord :=
            { number := n, kind := kind, defaultFade := min (wordAt p 3) 9999, defaultCurve := curve
              followWait := if wordAt p 6 = 65535 then none else some (min (wordAt p 6) 9999)
              moves := [], actions := [] }
          TakenAs (.recordBegin f) 0x20 f s [] { s with cues := { s.cues with edit := some draft } })
    ∧ ∀ (f : OrderFrame) (s : State), f.payload = [] → s.sup.localMode = false →
      (s.cues.edit = none → RefusedAs (.recordAbandon f) 0x24 f s .noEdit [])
      ∧ ∀ draft, s.cues.edit = some draft →
          TakenAs (.recordAbandon f) 0x24 f s [] { s with cues := { s.cues with edit := none } }
          ∧ (present { s with cues := { s.cues with edit := none } }).editOpen = false

/-- MOVE ADD and MUTE ACTION ADD are checked whole and applied in frame order to the open buffer alone; moves and
actions applied to an ordered list leave it ordered, a target's move and a subject's action being then the last the
frame gives it, or else the one it had (R21, R27–R29). The frame's moves and actions are read field by field, clamped
as they are accepted (R4, R27, section 9.6). -/
def Obligations.DraftsAreFilled : Prop :=
  (∀ (f : OrderFrame) (s : State), s.sup.localMode = false →
      (f.payload.length ∈ payloadLengths 0x21 →
        (s.cues.edit = none → RefusedAs (.moveAdd f) 0x21 f s .noEdit [])
        ∧ ∀ draft, s.cues.edit = some draft →
          (movesOf f.payload = none → RefusedAs (.moveAdd f) 0x21 f s .range [])
          ∧ ∀ moves, movesOf f.payload = some moves →
            (128 < (applyMoves moves draft.moves).length → RefusedAs (.moveAdd f) 0x21 f s .moveLimit [])
            ∧ ((applyMoves moves draft.moves).length ≤ 128 → TakenAs (.moveAdd f) 0x21 f s []
                { s with cues := { s.cues with edit := some { draft with moves := applyMoves moves draft.moves } } }))
      ∧ (f.payload.length ∈ payloadLengths 0x22 →
        (s.cues.edit = none → RefusedAs (.muteActionAdd f) 0x22 f s .noEdit [])
        ∧ ∀ draft, s.cues.edit = some draft →
          (actionsOf f.payload = none → RefusedAs (.muteActionAdd f) 0x22 f s .range [])
          ∧ ∀ actions, actionsOf f.payload = some actions →
            (8 < (applyDraftActions actions draft.actions).length → RefusedAs (.muteActionAdd f) 0x22 f s .muteLimit [])
            ∧ ((applyDraftActions actions draft.actions).length ≤ 8 → TakenAs (.muteActionAdd f) 0x22 f s []
                { s with cues := { s.cues with
                  edit := some { draft with actions := applyDraftActions actions draft.actions } } })))
    ∧ (∀ (moves into : List Move), into.Pairwise (fun a b => a.target < b.target) →
      (applyMoves moves into).Pairwise (fun a b => a.target < b.target)
      ∧ ∀ t : Target, (applyMoves moves into).find? (fun m => decide (m.target = t)) =
          (moves.reverse.find? fun m => decide (m.target = t)).or (into.find? fun m => decide (m.target = t)))
    ∧ (∀ (actions into : List MuteAction), into.Pairwise (fun a b => a.subject.place < b.subject.place) →
      (applyDraftActions actions into).Pairwise (fun a b => a.subject.place < b.subject.place)
      ∧ ∀ u : MuteSubject, (applyDraftActions actions into).find? (fun a => decide (a.subject = u)) =
          (actions.reverse.find? fun a => decide (a.subject = u)).or (into.find? fun a => decide (a.subject = u)))
    ∧ ((∀ m : MuteGroup, (MuteSubject.group m).place = m.val)
      ∧ ∀ c : Channel, (MuteSubject.channel c).place = 8 + c.val)
    ∧ (∀ p : List Byte,
      (movesOf p = none ↔ ∃ k < p.length / 8, byteAt p (8 * k) = 0 ∨ 80 < byteAt p (8 * k)
        ∨ (3 < byteAt p (8 * k + 7) ∧ byteAt p (8 * k + 7) ≠ 255))
      ∧ ∀ moves, movesOf p = some moves → moves.length = p.length / 8 ∧ ∀ (k : Nat) (m : Move), moves[k]? = some m →
          let time := fun (n : Nat) => if n = 65535 then none else some (min n 9999)
          byteAt p (8 * k) = m.target.val + 1 ∧ m.position = min (wordAt p (8 * k + 1)) 1023
            ∧ m.fade = time (wordAt p (8 * k + 3)) ∧ m.delay = time (wordAt p (8 * k + 5))
            ∧ m.curve = curveOf (byteAt p (8 * k + 7)))
    ∧ ∀ p : List Byte,
      (actionsOf p = none ↔ ∃ k < p.length / 2, byteAt p (2 * k) = 0 ∨ 72 < byteAt p (2 * k) ∨ 1 < byteAt p (2 * k + 1))
      ∧ ∀ actions, actionsOf p = some actions → actions.length = p.length / 2 ∧ ∀ (k : Nat) (a : MuteAction),
          actions[k]? = some a →
          subjectOf (byteAt p (2 * k)) = some a.subject ∧ muteStateOf (byteAt p (2 * k + 1)) = some a.state

/-- RECORD END commits the draft by replacement or insertion, or refuses by its checks in order (R30, R31, R45). CUE
DELETE removes the record, gives its moves back and leaves the current cue; its refusals (R35, R45). -/
def Obligations.RecordsCommittedAndDeleted : Prop :=
  (∀ (f : OrderFrame) (s : State), f.payload = [] → s.sup.localMode = false →
      (s.cues.edit = none → RefusedAs (.recordEnd f) 0x23 f s .noEdit [])
      ∧ ∀ d, s.cues.edit = some d →
        (s.play.state.isResolving = true → RefusedAs (.recordEnd f) 0x23 f s .busy [])
        ∧ (s.play.state.isResolving = false →
          let size := d.moves.length
          let free := s.cues.poolFree
          let commit := fun (old : Nat) =>
            let table := insertCue d s.cues.table
            TakenAs (.recordEnd f) 0x23 f s (nat16 table.length ++ nat16 (free + old - size))
              { s with
                cues := { table := table, poolFree := free + old - size, edit := none }
                play := { s.play with standby := standbyOver table s.play } }
          (∀ r, findCue s.cues.table d.number = some r →
            (free + r.moves.length < size → RefusedAs (.recordEnd f) 0x23 f s .poolFull [])
            ∧ (size ≤ free + r.moves.length → commit r.moves.length))
          ∧ (findCue s.cues.table d.number = none →
            (500 ≤ s.cues.table.length → RefusedAs (.recordEnd f) 0x23 f s .tableFull [])
            ∧ (s.cues.table.length < 500 → free < size → RefusedAs (.recordEnd f) 0x23 f s .poolFull [])
            ∧ (s.cues.table.length < 500 → size ≤ free → commit 0))))
    ∧ ∀ (f : OrderFrame) (s : State), f.payload.length = 2 → s.sup.localMode = false →
      let n := wordAt f.payload 0
      (s.play.state.isResolving = true → RefusedAs (.cueDelete f) 0x26 f s .busy [])
      ∧ (s.play.state.isResolving = false → findCue s.cues.table n = none → RefusedAs (.cueDelete f) 0x26 f s .noCue [])
      ∧ ∀ r, s.play.state.isResolving = false → findCue s.cues.table n = some r →
          let table := s.cues.table.filter fun c => decide (c.number ≠ n)
          let free := s.cues.poolFree + r.moves.length
          TakenAs (.cueDelete f) 0x26 f s (nat16 table.length ++ nat16 free)
            { s with
              cues := { s.cues with table := table, poolFree := free }
              play := { s.play with standby := standbyOver table s.play } }

/-- RECORD LIVE records the effective positions of the unlocked targets and the mute group states and commits them as
RECORD END would, the buffer staying closed (R33, R34). -/
def Obligations.RecordLiveCommits : Prop :=
  ∀ (f : OrderFrame) (s : State), f.payload.length = 3 → s.sup.localMode = false →
    let n := wordAt f.payload 0
    (s.cues.edit ≠ none → RefusedAs (.recordLive f) 0x25 f s .editOpen [])
    ∧ (s.cues.edit = none → s.play.state.isResolving = true → RefusedAs (.recordLive f) 0x25 f s .busy [])
    ∧ (s.cues.edit = none → s.play.state.isResolving = false → n = 0 ∨ 60000 < n ∨ 1 < byteAt f.payload 2 →
        RefusedAs (.recordLive f) 0x25 f s .range [])
    ∧ ∀ kind, s.cues.edit = none → s.play.state.isResolving = false → 1 ≤ n → n ≤ 60000 →
        kindOf (byteAt f.payload 2) = some kind →
        let live : CueRecord :=
          { number := n, kind := kind, defaultFade := 30, defaultCurve := .linear, followWait := none
            moves := ((List.finRange 80).filter fun t => !targetLocked s.out.windows t).map fun t =>
              { target := t, position := effective s t, fade := none, delay := none, curve := none }
            actions := (List.finRange 8).map fun m => { subject := .group m, state := s.mute.groupStates[m] } }
        (∀ reason, capacityRefusal s.cues n live.moves.length = some reason →
          RefusedAs (.recordLive f) 0x25 f s reason [])
        ∧ (capacityRefusal s.cues n live.moves.length = none →
          let cues := s.cues.commit live
          TakenAs (.recordLive f) 0x25 f s (nat16 cues.table.length ++ nat16 cues.poolFree)
            { s with cues := cues, play := { s.play with standby := standbyOver cues.table s.play } })

/-- CUE READ, MOVE READ and TABLE INFO report and change nothing, in LOCAL mode and during a resolution too
(R36–R38). -/
def Obligations.CueReadsReport : Prop :=
  ∀ (f : OrderFrame) (s : State),
    (f.payload.length = 2 → ∀ r,
      (if wordAt f.payload 0 = 0 then s.cues.edit else findCue s.cues.table (wordAt f.payload 0)) = some r →
      ReadAs (.cueRead f) 0x27 f s
        (nat16 r.number ++ [r.kind.code] ++ nat16 r.defaultFade ++ [r.defaultCurve.code] ++ timeBytes r.followWait
          ++ [nat8 r.moves.length, nat8 r.actions.length] ++ r.actions.flatMap actionBytes) s)
    ∧ (f.payload.length = 3 → ∀ r,
      (if wordAt f.payload 0 = 0 then s.cues.edit else findCue s.cues.table (wordAt f.payload 0)) = some r →
      let returned := (r.moves.drop (byteAt f.payload 2)).take 6
      ReadAs (.moveRead f) 0x28 f s
        ([nat8 r.moves.length, nat8 returned.length] ++ returned.flatMap moveBytes) s)
    ∧ (f.payload.length = 2 → wordAt f.payload 0 = 0 → s.cues.edit = none →
        ReadRefusedAs (.cueRead f) 0x27 f s .noEdit)
    ∧ (f.payload.length = 2 → wordAt f.payload 0 ≠ 0 → findCue s.cues.table (wordAt f.payload 0) = none →
        ReadRefusedAs (.cueRead f) 0x27 f s .noCue)
    ∧ (f.payload.length = 3 → wordAt f.payload 0 = 0 → s.cues.edit = none →
        ReadRefusedAs (.moveRead f) 0x28 f s .noEdit)
    ∧ (f.payload.length = 3 → wordAt f.payload 0 ≠ 0 → findCue s.cues.table (wordAt f.payload 0) = none →
        ReadRefusedAs (.moveRead f) 0x28 f s .noCue)
    ∧ (f.payload = [] →
      ReadAs (.tableInfo f) 0x29 f s
        (nat16 s.cues.table.length ++ nat16 s.cues.poolFree ++ nat16 s.play.current ++ nat16 (standbyNumber s)
          ++ [s.play.state.code] ++ nat16 s.fade.lastCompleted ++ nat16 (draftNumber s.cues)) s)

/-! ### Fades and levels -/

/-- A firing: its moves in the record's order, each with its absent fields filled from the cue's defaults (R20, R49,
R71); its mute actions all set before the requests are evaluated, once (R129). A move on its target: skipped with
LOCK_SKIP on a locked channel, else a delayed move, a timed move or a snap (R72–R76). -/
def Obligations.FiredMoves : Prop :=
  ((∀ (r : CueRecord) (s : State), fireMoves r s = r.moves.foldl (fun u m => fireMove r.number u
        ⟨m.target, m.position, m.fade.getD r.defaultFade, m.delay.getD 0, m.curve.getD r.defaultCurve⟩) s)
      ∧ ∀ (u : MuteUnit) (actions : List MuteAction),
        let set := actions.foldl (fun (v : MuteUnit) a =>
          match a.subject with
          | .group m => { v with groupStates := v.groupStates.set m a.state }
          | .channel c => { v with flags := v.flags.set c (decide (a.state = .mute)) }) u
        u.applyActions actions = { set with ramps := Vector.ofFn fun c => rampAfter u set c })
    ∧ ∀ (s : State) (owner : Nat) (m : FiredMove),
      let t := fireMove owner s m
      let others := s.fade.entries.filter fun e => decide (e.target ≠ m.target)
      (targetLocked s.out.windows m.target = true → t = latch .lockSkip s)
      ∧ (targetLocked s.out.windows m.target = false →
        (0 < m.delay → t = { s with fade := { s.fade with
            entries := (s.fade.entries.filter fun e => !(decide (e.target = m.target) && !e.isRunning))
              ++ [⟨m.target, owner, m.position, m.fade * 100, m.curve, .waiting (m.delay * 100)⟩] } })
        ∧ (m.delay = 0 → 0 < m.fade → t = { s with fade := { s.fade with
            entries := others
              ++ [⟨m.target, owner, m.position, m.fade * 100, m.curve, .running (s.fade.automation m.target) 0⟩] } })
        ∧ (m.delay = 0 → m.fade = 0 → t = { s with fade := { s.fade with
            entries := others, rest := s.fade.rest.set m.target m.position } }))

/-- A delay expiry starts the waiting fade from the automation position, taking the running one over, or is a delayed
snap that completes; a fade completion sets the rest position, removes the entry and may latch CUE_DONE (R78–R81). -/
def Obligations.FadesExpire : Prop :=
  (∀ (s : State) (e : FadeEntry), s.inReset = false → FadeTableKeyed s → e ∈ s.fade.entries →
      e.phase = .waiting 0 →
      (0 < e.duration → exec (.delayExpiry e.target) s = .next { s with fade := { s.fade with
          entries := (s.fade.entries.filter fun x => !(decide (x.target = e.target) && x.isRunning)).map fun x =>
            if x.target = e.target then { x with phase := .running (s.fade.automation e.target) 0 } else x } })
      ∧ (e.duration = 0 → exec (.delayExpiry e.target) s = .next (leftByCompletion e.owner { s.fade with
          entries := s.fade.entries.filter fun x => decide (x.target ≠ e.target)
          rest := s.fade.rest.set e.target e.goal } s)))
    ∧ ∀ (s : State) (e : FadeEntry) (start elapsed : Nat), s.inReset = false → FadeTableKeyed s → e ∈ s.fade.entries →
      e.phase = .running start elapsed → e.duration ≤ elapsed →
      exec (.fadeCompletion e.target) s = .next (leftByCompletion e.owner { s.fade with
        entries := s.fade.entries.filter fun x => !(decide (x.target = e.target) && x.isRunning)
        rest := s.fade.rest.set e.target e.goal } s)

/-- A resolution's completion is one change: installations, mute states, RESOLVE_DONE, current cue, standby, and HELD
or the freeze released (R60, R97, R98). The installed targets are the unlocked ones that stand elsewhere or have an
entry; their entries go and their GOTO fades join in ascending order, or their rest positions are set (R84, R95, R96);
the 72 mute subjects take their resolved states and the requests are evaluated once (R97, R129). -/
def Obligations.ResolutionCompletes : Prop :=
  ∀ (s : State) (r : Resolution), s.inReset = false → s.play.state = .resolving r →
    let walk := walkFrom s.cues.table r.goal
    let fade := s.fade.resolveAll s.out.windows walk r.gotoTime
    let mute := s.mute.handOver walk
    let goal := fun (t : Target) => resolvedPosition t s.fade.base[t] walk
    let installed := fun (t : Target) => !targetLocked s.out.windows t
      && (decide (goal t ≠ s.fade.automation t) || s.fade.entries.any fun e => decide (e.target = t))
    exec .resolutionCompletion s = .next (noteChanges s { s with
      fade := fade, mute := mute, status := s.status.record .resolveDone
      play := { s.play with
        current := r.goal, standby := computedStandby s.cues.table r.goal
        state := if r.holdRequested then .held else if fade.entries.isEmpty then .standby else .running
        freeze := r.holdRequested } })
    ∧ (fade.entries = (s.fade.entries.filter fun e => !installed e.target) ++
        if 0 < r.gotoTime then ((List.finRange 80).filter installed).map fun t =>
          ⟨t, 0, goal t, r.gotoTime * 100, .linear, .running (s.fade.automation t) 0⟩
        else [])
    ∧ (∀ t : Target, fade.rest[t] = if installed t = true ∧ r.gotoTime = 0 then goal t else s.fade.rest[t])
    ∧ fade.base = s.fade.base ∧ fade.lastCompleted = s.fade.lastCompleted
    ∧ (∀ m : MuteGroup, mute.groupStates[m] = resolvedMute (.group m) walk)
    ∧ (∀ c : Channel, mute.flags[c] = decide (resolvedMute (.channel c) walk = .mute))
    ∧ (∀ c : Channel, mute.ramps[c] = rampAfter s.mute { mute with ramps := s.mute.ramps } c)
    ∧ mute = { s.mute with groupStates := mute.groupStates, flags := mute.flags, ramps := mute.ramps }

/-- The backward search: over the stored cues from the goal downward, the first that moves the target or is a BLOCK
cue decides, and mute subjects alike (R92, R93). One target at a completion: left alone when locked, or when it stands
at its resolved position without entries; else its entries go and a GOTO fade or a rest position is installed (R84,
R95, R96). -/
def Obligations.TargetsResolved : Prop :=
  (∀ (table : List CueRecord) (goal : Nat), table.Pairwise (fun a b => a.number < b.number) →
      let walk := walkFrom table goal
      (∀ r, r ∈ walk ↔ r ∈ table ∧ r.number ≤ goal) ∧ walk.Pairwise (fun a b => b.number < a.number)
      ∧ (∀ (t : Target) (base : Nat), resolvedPosition t base walk =
          match walk.find? fun r => r.moves.any (fun m => decide (m.target = t)) || decide (r.kind = .block) with
          | none => base
          | some r => match r.moves.find? fun m => decide (m.target = t) with
            | some m => m.position
            | none => base)
      ∧ ∀ u : MuteSubject, resolvedMute u walk =
          match walk.find? fun r => r.actions.any (fun a => decide (a.subject = u)) || decide (r.kind = .block) with
          | none => .opened
          | some r => match r.actions.find? fun a => decide (a.subject = u) with
            | some a => a.state
            | none => .opened)
    ∧ ∀ (ws : Vector (Option Window) 8) (walk : List CueRecord) (time : Nat) (u : FadeEngine) (t : Target),
      let v := u.resolveTarget ws walk time t
      let goal := resolvedPosition t u.base[t] walk
      let others := u.entries.filter fun e => decide (e.target ≠ t)
      (targetLocked ws t = true → v = u)
      ∧ (goal = u.automation t → (∀ e ∈ u.entries, e.target ≠ t) → v = u)
      ∧ (targetLocked ws t = false → goal ≠ u.automation t ∨ (∃ e ∈ u.entries, e.target = t) →
        (0 < time →
          v = { u with entries := others ++ [⟨t, 0, goal, time * 100, .linear, .running (u.automation t) 0⟩] })
        ∧ (time = 0 → v = { u with entries := others, rest := u.rest.set t goal }))

/-- The position blend: its formula, its ends, its bounds and its direction; and its three uses, in a fade, a park ramp
and a glide (R5). -/
def Obligations.BlendIsExact : Prop :=
  (∀ a b n : Nat, a ≤ 1023 → b ≤ 1023 → n ≤ 4096 →
    let d : Int := ((b : Int) - a) * n
    (blend a b n : Int) = a + d.sign * (((d.natAbs + 2048) / 4096 : Nat) : Int)
    ∧ blend a b 0 = a ∧ blend a b 4096 = b ∧ min a b ≤ blend a b n ∧ blend a b n ≤ max a b
    ∧ ∀ k, n ≤ k → k ≤ 4096 → (a ≤ b → blend a b n ≤ blend a b k) ∧ (b < a → blend a b k ≤ blend a b n))
    ∧ (∀ (e : FadeEntry) (start elapsed : Nat), e.phase = .running start elapsed →
        e.value? = some (blend start e.goal (shape e.curve (fraction elapsed e.duration))))
    ∧ (∀ position start duration elapsed, elapsed < duration →
        rampValue position start duration elapsed = blend start position (fraction elapsed duration))
    ∧ ∀ (s : State) (t : Target) (release time elapsed : Nat), s.own.owners[t] = .glide release time elapsed →
        effective s t = blend release (s.fade.automation t) (fraction elapsed time)

/-- The fraction: formula, range, ends and direction (R86). The four curves: formulas, ends, range, direction, their
places about LINEAR and the quarter points (R87). -/
def Obligations.FractionAndCurvesAreExact : Prop :=
  ((∀ e d : Nat, 1 ≤ d → e ≤ d →
      fraction e d = 4096 * e / d ∧ fraction e d ≤ 4096 ∧ fraction 0 d = 0 ∧ fraction d d = 4096
        ∧ ∀ e', e ≤ e' → fraction e d ≤ fraction e' d)
      ∧ fraction 700 2300 = 1246)
    ∧ (∀ f : Nat, f ≤ 4096 →
      shape .linear f = f ∧ shape .slow f = f ^ 2 / 4096 ∧ shape .fast f = 4096 - (4096 - f) ^ 2 / 4096
        ∧ shape .s f = (3 * f ^ 2 * 4096 - 2 * f ^ 3) / 16777216
        ∧ shape .slow f ≤ f ∧ f ≤ shape .fast f ∧ shape .fast f = 4096 - shape .slow (4096 - f)
        ∧ (f < 2048 → shape .s f ≤ f) ∧ (2048 < f → f ≤ shape .s f)
        ∧ ∀ c : Curve, shape c f ≤ 4096 ∧ ∀ g, f ≤ g → g ≤ 4096 → shape c f ≤ shape c g)
      ∧ (∀ c : Curve, shape c 0 = 0 ∧ shape c 4096 = 4096)
      ∧ shape .slow 1024 = 256 ∧ shape .fast 1024 = 1792 ∧ shape .s 1024 = 640
      ∧ shape .slow 2048 = 1024 ∧ shape .fast 2048 = 3072 ∧ shape .s 2048 = 2048
      ∧ shape .slow 3072 = 2304 ∧ shape .fast 3072 = 3840 ∧ shape .s 3072 = 3456

/-- The fader law: OFF at 0 alone, the nine breakpoints, the places of the lowest and the highest level, the exact
value of a segment to nearest with ties toward plus infinity, never falling (R8, R9). The combiner: OFF at a zero
position; else the sum, saturated at +100, less the mute, OFF below −900 (R12–R14); raising the channel's or one
group's position never lowers the code, and raising the mute never raises it, OFF counting as below −900 (R15). -/
def Obligations.LevelsAreExact : Prop :=
  (faderLaw 0 = .off
      ∧ [1, 128, 256, 384, 512, 640, 768, 896, 1023].map lawLevel = [-900, -600, -400, -300, -200, -100, 0, 50, 100]
      ∧ (∀ p, 1 ≤ p → p ≤ 1023 → (lawLevel p = -900 ↔ p = 1) ∧ (lawLevel p = 100 ↔ 1022 ≤ p))
      ∧ (∀ p, 1 ≤ p → p ≤ 1023 → faderLaw p = .level (lawLevel p) ∧ -900 ≤ lawLevel p ∧ lawLevel p ≤ 100)
      ∧ (∀ g ∈ segments, lawLevel g.fromPos = g.fromLevel ∧ lawLevel g.toPos = g.toLevel)
      ∧ (∀ g ∈ segments, ∀ p : Nat, g.fromPos ≤ p → p < g.toPos →
          let w : Int := (g.toPos : Int) - g.fromPos
          let exact : Int := g.fromLevel * w + (g.toLevel - g.fromLevel) * ((p : Int) - g.fromPos)
          2 * exact - w < 2 * w * lawLevel p ∧ 2 * w * lawLevel p ≤ 2 * exact + w)
      ∧ ∀ p, 1 ≤ p → p < 1023 → lawLevel p ≤ lawLevel (p + 1))
    ∧ (∀ (channel : Nat) (groups : List Nat) (m : Nat),
      (channel = 0 ∨ 0 ∈ groups → combine channel groups m = .off)
      ∧ (channel ≠ 0 → 0 ∉ groups →
        let v := min (lawLevel channel + (groups.map lawLevel).sum) 100 - (m : Int)
        (v < -900 → combine channel groups m = .off)
        ∧ (-900 ≤ v → combine channel groups m = .level v ∧ v ≤ 100))
      ∧ ∀ m', m ≤ m' → NoHigher (combine channel groups m') (combine channel groups m))
      ∧ ∀ (channel channel' p p' : Nat) (before after : List Nat) (m : Nat), channel ≤ channel' → channel' ≤ 1023 →
        p ≤ p' → p' ≤ 1023 →
        NoHigher (combine channel (before ++ p :: after) m) (combine channel' (before ++ p :: after) m)
          ∧ NoHigher (combine channel (before ++ p :: after) m) (combine channel (before ++ p' :: after) m)
          ∧ NoHigher (combine channel before m) (combine channel' before m)

/-- The automation position of a target: its RUNNING entry's curve value, else its rest position (R67, R88); the
effective position by its owner (R103, R118, R120); the attenuation of a mute ramp (R135); and the level code of a
channel from these at one instant (R11, R17). -/
def Obligations.PositionsComputed : Prop :=
  ∀ s : State,
    (∀ (e : FadeEntry) (start elapsed : Nat), FadeTableKeyed s → e ∈ s.fade.entries → e.phase = .running start elapsed →
        s.fade.automation e.target = blend start e.goal (shape e.curve (4096 * elapsed / e.duration)))
    ∧ (∀ t : Target, (∀ e ∈ s.fade.entries, ∀ start elapsed, e.target = t → e.phase ≠ .running start elapsed) →
        s.fade.automation t = s.fade.rest[t])
    ∧ (∀ t : Target,
      (s.own.owners[t] = .auto → effective s t = s.fade.automation t)
      ∧ (∀ i : Strip, s.own.owners[t] = .operator i → effective s t = s.own.strips[i].lastPosition)
      ∧ (∀ release time elapsed, s.own.owners[t] = .glide release time elapsed →
          effective s t = blend release (s.fade.automation t) (4096 * elapsed / time))
      ∧ ∀ position start duration elapsed, s.own.owners[t] = .parked position start duration elapsed →
          effective s t =
            if elapsed < duration then blend start position (4096 * elapsed / duration) else position)
    ∧ (MuteRamp.opened.attenuation = 0 ∧ MuteRamp.muted.attenuation = 1000
      ∧ (∀ start rate mark elapsed,
          (MuteRamp.muting start rate mark elapsed).attenuation = min 1000 (start + 1000 * elapsed / rate))
      ∧ ∀ start rate elapsed, (MuteRamp.opening start rate elapsed).attenuation = start - 1000 * elapsed / rate)
    ∧ ∀ (c : Channel) (x : Target), x.val = c.val → ∃ groups : List Nat,
        channelCode s c = combine (effective s x) groups s.mute.ramps[c].attenuation
        ∧ groups.length = s.mute.groups[c].length
        ∧ ∀ (k : Nat) (g : Group) (y : Target), s.mute.groups[c][k]? = some g → y.val = 64 + g.val →
            groups[k]? = some (effective s y)

/-! ### Ownership and the surface -/

/-- A valid report is taken, restarts the silence timer and is answered by a motor frame; the first after absence
blocks the touched strips and claims nothing (R108, R113, R116). -/
def Obligations.ReportsTaken : Prop :=
  ∀ (scan : Byte) (words : Vector Word16 16) (s : State), s.inReset = false →
    let own := if s.surface.present then s.own.takeReport words else s.own.takeFirstReport words
    let frame := motorFrame { s with own := own } scan words
    let t := { s with own := own, surface := { s.surface with
      silence := some 100, rx := .hunt, motorQueue := s.surface.motorQueue ++ [frame] } }
    exec (.surfaceReport scan words) s = .next (if s.surface.present then t else latch .stateChanged t)
    ∧ (∀ i : Strip, frame.words[i] =
        if wordTouch words[i] then .leave
        else match own.bank[own.page][i] with
          | none => .leave
          | some x => .drive (effective { s with own := own } x))
    ∧ frame.scan = scan ∧ frame.page = own.page
    ∧ (s.surface.present = false → own.owners = s.own.owners ∧ ∀ i : Strip, own.strips[i] =
        if wordTouch words[i] then ⟨.blocked, wordPosition words[i]⟩ else s.own.strips[i])

/-- A report strip by strip (R109–R112), the words read as R165 says. One strip, every other idle and untouched: its
touch rises, holds or falls, or nothing changes. Any strips at once, strips and owners in agreement: a fall frees its
target, a hold goes on, and a rise claims the strip's target on the page, one that the same report frees included,
unless it is PARKED or another strip goes on holding it. -/
def Obligations.TouchesRiseHoldFall : Prop :=
  (∀ w : Word16, (wordTouch w = true ↔ 32768 ≤ w.toNat) ∧ wordPosition w = min (w.toNat % 32768) 1023)
    ∧ (∀ (u : Ownership) (words : Vector Word16 16) (i : Strip),
      (∀ j : Strip, j ≠ i → u.strips[j].state = .idle ∧ wordTouch words[j] = false) →
      let p := wordPosition words[i]
      let v := u.takeReport words
      let last := u.strips[i].lastPosition
      (wordTouch words[i] = false → u.strips[i].state = .idle → v = u)
      ∧ (wordTouch words[i] = false → u.strips[i].state = .blocked → v = u.setStrip i ⟨.idle, last⟩)
      ∧ (∀ t k, wordTouch words[i] = false → u.strips[i].state = .touched t k →
          v = (u.setOwner t (if u.glideTime = 0 then .auto else .glide last u.glideTime 0)).setStrip i ⟨.idle, last⟩)
      ∧ (wordTouch words[i] = true → u.strips[i].state = .blocked → v = u.setStrip i ⟨.blocked, p⟩)
      ∧ (∀ t k, wordTouch words[i] = true → u.strips[i].state = .touched t k →
          v = u.setStrip i ⟨.touched t (k.map fun k =>
            if k.reference + 4 < p ∨ p + 4 < k.reference then ⟨p, 0⟩ else k), p⟩)
      ∧ (wordTouch words[i] = true → u.strips[i].state = .idle →
        (u.bank[u.page][i] = none → v = u.setStrip i ⟨.blocked, p⟩)
        ∧ ∀ t, u.bank[u.page][i] = some t →
          ((∃ j, u.owners[t] = .operator j) ∨ (∃ a b c d, u.owners[t] = .parked a b c d) →
            v = u.setStrip i ⟨.blocked, p⟩)
          ∧ (u.owners[t] = .auto ∨ (∃ a b c, u.owners[t] = .glide a b c) →
            v = (u.setStrip i ⟨.touched t (if u.stuckTime = 0 then none else some ⟨p, 0⟩), p⟩).setOwner t
              (.operator i))))
    ∧ ∀ (u : Ownership) (words : Vector Word16 16),
      (∀ (i : Strip) (t : Target), latchedTarget u.strips[i] = some t ↔ u.owners[t] = .operator i) →
      (∀ (i j : Strip) (t : Target), u.bank[u.page][i] = some t → u.bank[u.page][j] = some t → i = j) →
      let v := u.takeReport words
      let claims := fun (i : Strip) (t : Target) =>
        wordTouch words[i] = true ∧ u.strips[i].state = .idle ∧ u.bank[u.page][i] = some t
          ∧ (∀ a b c d, u.owners[t] ≠ .parked a b c d)
          ∧ ∀ j : Strip, u.owners[t] = .operator j → wordTouch words[j] = false
      (∀ i : Strip, wordTouch words[i] = false → v.strips[i] = ⟨.idle, u.strips[i].lastPosition⟩)
      ∧ (∀ i : Strip, wordTouch words[i] = true → u.strips[i].state = .blocked →
          v.strips[i] = ⟨.blocked, wordPosition words[i]⟩)
      ∧ (∀ (i : Strip) (t : Target) (k : Option StuckTimer), wordTouch words[i] = true →
          u.strips[i].state = .touched t k →
          let p := wordPosition words[i]
          v.strips[i] = ⟨.touched t (k.map fun k =>
            if k.reference + 4 < p ∨ p + 4 < k.reference then ⟨p, 0⟩ else k), p⟩)
      ∧ (∀ (i : Strip) (t : Target), claims i t →
          let p := wordPosition words[i]
          v.strips[i] = ⟨.touched t (if u.stuckTime = 0 then none else some ⟨p, 0⟩), p⟩
            ∧ v.owners[t] = .operator i)
      ∧ (∀ i : Strip, wordTouch words[i] = true → u.strips[i].state = .idle → (∀ t, ¬claims i t) →
          v.strips[i] = ⟨.blocked, wordPosition words[i]⟩)
      ∧ (∀ t : Target, (∀ i, ¬claims i t) → v.owners[t] =
          match u.owners[t] with
          | .operator j =>
            if wordTouch words[j] then .operator j
            else if u.glideTime = 0 then .auto else .glide u.strips[j].lastPosition u.glideTime 0
          | o => o)
      ∧ v = { u with owners := v.owners, strips := v.strips }

/-- The surface receiver, given a frame byte by byte in HUNT, takes it as the report it is, or drops it where its
check does not agree (R165). Surface frames that fail or break off are dropped with nothing latched; a motor frame
leaves in its turn (R108, R165, R166). -/
def Obligations.SurfaceFramesReceived : Prop :=
  ∀ s : State, s.inReset = false →
    let dropped := { s with surface := { s.surface with rx := .hunt } }
    (s.surface.rx = .hunt →
      (∀ scan words, exec (.surfaceReport scan words) s =
        .next ((surfaceLead :: reportBody scan words).foldl surfaceByte s))
      ∧ (∀ scan words check, check ≠ surfaceCheck scan words →
        (surfaceLead :: scan :: stripBytes words ++ wordBytes check).foldl surfaceByte s = s)
      ∧ ∀ b, b ≠ 0xC3 → surfaceByte s b = s)
    ∧ (∀ scan words check, check ≠ surfaceCheck scan words →
      exec (.surfaceFrameDropped scan words check) s = .next dropped)
    ∧ (∀ bytes, s.surface.rx = .hunt → bytes.length < 35 →
      exec (.surfaceGapExpiry (surfaceLead :: bytes)) s = .next dropped
        ∧ ∀ last, exec (.surfaceFramingFault (surfaceLead :: bytes) last) s = .next dropped)
    ∧ exec (.surfaceGapExpiry []) s = .next dropped
    ∧ (∀ last, exec (.surfaceFramingFault [] last) s = .next dropped)
    ∧ ∀ m rest, s.surface.motorQueue = m :: rest →
        exec .motorFrameSend s = .next { s with surface := { s.surface with motorQueue := rest, motorOut := some m } }

/-- The surface's expiries: surface loss frees every strip, a stuck touch blocks its strip, a glide ends in AUTO
(R114, R115, R118). -/
def Obligations.SurfaceTimersExpire : Prop :=
  ∀ s : State, s.inReset = false →
    (s.surface.silence = some 0 → StripsOwnTheirTargets s →
      ∃ t, exec .surfaceLoss s = .next t ∧ t.surface.silence = none
        ∧ t.status = (s.status.record .surfaceLost).record .stateChanged
        ∧ (∀ i : Strip, t.own.strips[i] = { s.own.strips[i] with state := .idle })
        ∧ ∀ x : Target, t.own.owners[x] =
            match s.own.owners[x] with
            | .operator i =>
              if s.own.glideTime = 0 then .auto else .glide s.own.strips[i].lastPosition s.own.glideTime 0
            | o => o)
    ∧ (∀ (i : Strip) (x : Target) (k : StuckTimer), s.own.strips[i].state = .touched x (some k) →
        s.own.stuckTime * 1000 ≤ k.elapsed →
        let freed := if s.own.glideTime = 0 then Owner.auto
          else .glide s.own.strips[i].lastPosition s.own.glideTime 0
        let own := (s.own.setOwner x freed).setStrip i { s.own.strips[i] with state := .blocked }
        exec (.stuckTouchExpiry i) s = .next (latch .touchStuck { s with own := own }))
    ∧ ∀ (x : Target) (release time elapsed : Nat), s.own.owners[x] = .glide release time elapsed → time ≤ elapsed →
        exec (.glideExpiry x) s = .next { s with own := s.own.setOwner x .auto }

/-- PARK ramps a target from its effective position and blocks an owning strip; UNPARK lets it go from its ramp value;
BASE SET changes the base position alone; the orders on a target refuse one of 0 or above 80 (R66, R119–R121, R124). -/
def Obligations.TargetOrdersTaken : Prop :=
  (∀ (f : OrderFrame) (s : State) (x : Target), s.sup.localMode = false → byteAt f.payload 0 = x.val + 1 →
      (f.payload.length = 5 →
        let position := min (wordAt f.payload 1) 1023
        let parked := Owner.parked position (effective s x) (min (wordAt f.payload 3) 9999 * 100) 0
        (∀ i, s.own.owners[x] = .operator i →
            let own := (s.own.setStrip i { s.own.strips[i] with state := .blocked }).setOwner x parked
            TakenAs (.park f) 0x31 f s (nat16 position) { s with own := own })
        ∧ ((∀ i, s.own.owners[x] ≠ .operator i) →
            TakenAs (.park f) 0x31 f s (nat16 position) { s with own := s.own.setOwner x parked }))
      ∧ (f.payload.length = 1 →
        (∀ position start duration elapsed, s.own.owners[x] = .parked position start duration elapsed →
          let value := if elapsed < duration then blend start position (fraction elapsed duration) else position
          let freed := if s.own.glideTime = 0 then Owner.auto else .glide value s.own.glideTime 0
          TakenAs (.unpark f) 0x32 f s [] { s with own := s.own.setOwner x freed })
        ∧ ((∀ a b c d, s.own.owners[x] ≠ .parked a b c d) → RefusedAs (.unpark f) 0x32 f s .notParked [])))
    ∧ (∀ (f : OrderFrame) (s : State), f.payload.length = 3 → s.sup.localMode = false →
      let p := f.payload
      (byteAt p 0 = 0 ∨ 80 < byteAt p 0 → RefusedAs (.baseSet f) 0x30 f s .range [])
      ∧ ∀ t : Target, byteAt p 0 = t.val + 1 →
          TakenAs (.baseSet f) 0x30 f s (nat16 (min (wordAt p 1) 1023))
            { s with fade := { s.fade with base := s.fade.base.set t (min (wordAt p 1) 1023) } })
    ∧ ∀ (f : OrderFrame) (s : State), byteAt f.payload 0 = 0 ∨ 80 < byteAt f.payload 0 →
      (s.sup.localMode = false → f.payload.length = 5 → RefusedAs (.park f) 0x31 f s .range [])
      ∧ (s.sup.localMode = false → f.payload.length = 1 → RefusedAs (.unpark f) 0x32 f s .range [])
      ∧ (f.payload.length = 1 → ReadRefusedAs (.targetRead f) 0x33 f s .range)

/-- TARGET READ reports a target as it stands and changes nothing, in LOCAL mode too (R124). -/
def Obligations.TargetReadReports : Prop :=
  ∀ (f : OrderFrame) (s : State) (x : Target), f.payload = [nat8 (x.val + 1)] →
    let o := ownerFields s.own.owners[x]
    let entries := s.fade.entries.filter fun e => decide (e.target = x)
    ReadAs (.targetRead f) 0x33 f s
      ([o.1, o.2.1] ++ nat16 (s.fade.automation x) ++ nat16 (effective s x) ++ nat16 s.fade.rest[x]
        ++ nat16 s.fade.base[x] ++ nat16 o.2.2.1 ++ nat32 o.2.2.2 ++ [nat8 entries.length]
        ++ entries.flatMap entryBytes
        ++ (if h : x.val < 64 then
              nat16 s.mute.ramps[x.val].attenuation ++ [s.mute.ramps[x.val].code]
                ++ wordBytes (channelCode s ⟨x.val, h⟩).word
            else [])) s

/-- BANK ASSIGN, PAGE SELECT and SURFACE CONFIG change their own values and no strip's hold (R106, R107, R123, R114).
A strip whose stuck timer the change makes due is left TOUCHED, its expiry being an event of its own at that instant:
the model's reading (log 23). -/
def Obligations.SurfaceOrdersTaken : Prop :=
  ∀ (f : OrderFrame) (s : State), s.sup.localMode = false →
    let p := f.payload
    (p.length = 3 →
      (3 < byteAt p 0 ∨ byteAt p 1 = 0 ∨ 16 < byteAt p 1 ∨ byteAt p 2 = 0 ∨ (80 < byteAt p 2 ∧ byteAt p 2 ≠ 255) →
        RefusedAs (.bankAssign f) 0x40 f s .range [])
      ∧ ∀ (page : Fin 4) (i : Strip) (entry : Option Target), byteAt p 0 = page.val → byteAt p 1 = i.val + 1 →
        bankTarget (byteAt p 2) = some entry →
        ((∃ x j, entry = some x ∧ j ≠ i ∧ s.own.bank[page][j] = some x) →
          RefusedAs (.bankAssign f) 0x40 f s .duplicate [])
        ∧ ((∀ x j, entry = some x → j ≠ i → s.own.bank[page][j] ≠ some x) →
          TakenAs (.bankAssign f) 0x40 f s [] { s with own := { s.own with
            bank := s.own.bank.set page (s.own.bank[page].set i entry) } }))
    ∧ (p.length = 1 →
      (3 < byteAt p 0 → RefusedAs (.pageSelect f) 0x41 f s .range [])
      ∧ ∀ page : Fin 4, byteAt p 0 = page.val →
        TakenAs (.pageSelect f) 0x41 f s [nat8 page.val] { s with own := { s.own with page := page } })
    ∧ (p.length = 4 →
      let stuck := if wordAt p 0 = 0 then 0 else min 900 (max 30 (wordAt p 0))
      let glide := min 5000 (wordAt p 2)
      TakenAs (.surfaceConfig f) 0x42 f s (nat16 stuck ++ nat16 glide) { s with own := { s.own with
        stuckTime := stuck, glideTime := glide
        strips := Vector.ofFn fun i : Strip => match s.own.strips[i].state with
          | .touched x k =>
            let k' := if stuck = 0 then none
              else if s.own.stuckTime = 0 then some ⟨s.own.strips[i].lastPosition, 0⟩ else k
            { s.own.strips[i] with state := .touched x k' }
          | .idle => s.own.strips[i]
          | .blocked => s.own.strips[i] } })

/-! ### Groups, mutes and show-stop -/

/-- GROUP ASSIGN stores up to three distinct groups in ascending order and touches nothing else; MUTE CONFIG stores the
clamped ramp times (R126, R141). -/
def Obligations.GroupsAndTimesSet : Prop :=
  ∀ (f : OrderFrame) (s : State), s.sup.localMode = false →
    let p := f.payload
    (p.length = 5 →
      (byteAt p 0 = 0 ∨ 64 < byteAt p 0 ∨ 3 < byteAt p 1 → RefusedAs (.groupAssign f) 0x34 f s .range [])
      ∧ (∀ c : Channel, byteAt p 0 = c.val + 1 → byteAt p 1 ≤ 3 →
        (∃ k < byteAt p 1, byteAt p (2 + k) = 0 ∨ 16 < byteAt p (2 + k)) →
        RefusedAs (.groupAssign f) 0x34 f s .range [])
      ∧ ∀ (c : Channel) (groups : List Group), byteAt p 0 = c.val + 1 → byteAt p 1 ≤ 3 →
        groups.map (fun g => g.val + 1) = (List.range (byteAt p 1)).map (fun k => byteAt p (2 + k)) →
        (¬groups.Nodup → RefusedAs (.groupAssign f) 0x34 f s .duplicate [])
        ∧ (groups.Nodup → ∃ stored : List Group, stored.Perm groups ∧ stored.Pairwise (· < ·)
          ∧ TakenAs (.groupAssign f) 0x34 f s
              (nat8 stored.length :: (stored.map codeOf ++ List.replicate (3 - stored.length) 0))
              { s with mute := { s.mute with groups := s.mute.groups.set c stored } }))
    ∧ (p.length = 6 →
      let times : MuteTimes :=
        { mute := min 200 (wordAt p 0), unmute := min 200 (wordAt p 2), stop := min 200 (wordAt p 4) }
      TakenAs (.muteConfig f) 0x38 f s (nat16 times.mute ++ nat16 times.unmute ++ nat16 times.stop)
        { s with mute := { s.mute with times := times } })

/-- MUTE SET, MUTE GROUP ASSIGN and EXEMPT SET change their own state, and every ramp follows its request evaluated
again (R127, R128, R130). -/
def Obligations.MuteOrdersTaken : Prop :=
  ∀ (f : OrderFrame) (s : State), f.payload.length = 2 → s.sup.localMode = false →
    let p := f.payload
    (∀ subject state, subjectOf (byteAt p 0) = some subject → muteStateOf (byteAt p 1) = some state →
      let after := match subject with
        | .group m => { s.mute with groupStates := s.mute.groupStates.set m state }
        | .channel c => { s.mute with flags := s.mute.flags.set c state.isMute }
      TakenAs (.muteSet f) 0x35 f s [state.code] { s with mute := { after with
        ramps := Vector.ofFn fun c => rampAfter s.mute after c } })
    ∧ (byteAt p 0 = 0 ∨ 72 < byteAt p 0 ∨ 1 < byteAt p 1 → RefusedAs (.muteSet f) 0x35 f s .range [])
    ∧ (byteAt p 0 = 0 ∨ 64 < byteAt p 0 → RefusedAs (.muteGroupAssign f) 0x36 f s .range [])
    ∧ (byteAt p 0 = 0 ∨ 64 < byteAt p 0 ∨ 1 < byteAt p 1 → RefusedAs (.exemptSet f) 0x37 f s .range [])
    ∧ ∀ c : Channel, byteAt p 0 = c.val + 1 →
      (∀ set : Byte, p[1]? = some set →
        let after := { s.mute with muteSets := s.mute.muteSets.set c set }
        TakenAs (.muteGroupAssign f) 0x36 f s [set] { s with mute := { after with
          ramps := Vector.ofFn fun d => rampAfter s.mute after d } })
      ∧ (byteAt p 1 ≤ 1 →
        let after := { s.mute with exempt := s.mute.exempt.set c (byteAt p 1 == 1) }
        TakenAs (.exemptSet f) 0x37 f s [nat8 (byteAt p 1)] { s with mute := { after with
          ramps := Vector.ofFn fun d => rampAfter s.mute after d } })

/-- A channel's ramp at an evaluation of its request: muting at the mute or the stop rate, restarting at the stop
rate, opening at the unmute time, or running on; immediate at rate 0. A ramp arrives where its formula reaches its
end, with no change of attenuation (R134, R136–R139). -/
def Obligations.RampsTurnAndArrive : Prop :=
  (∀ (before after : MuteUnit) (c : Channel),
      let m := after.ramps[c].attenuation
      let start := fun (rate : Nat) (stopRate : Bool) =>
        if m ≥ 1000 ∨ rate = 0 then MuteRamp.muted else .muting m rate stopRate 0
      let v := rampAfter before after c
      (before.request c = false → after.request c = true →
        v = if after.stopActive = true ∧ after.exempt[c] = false then start after.times.stop true
          else start after.times.mute false)
      ∧ (before.request c = true → after.request c = false →
        v = if m = 0 ∨ after.times.unmute = 0 then .opened else .opening m after.times.unmute 0)
      ∧ (before.request c = false → after.request c = false → v = after.ramps[c])
      ∧ (before.request c = true → after.request c = true →
        (∀ m0 rate elapsed, after.ramps[c] = .muting m0 rate false elapsed →
          before.stopCounts c = false → after.stopCounts c = true → v = start after.times.stop true)
        ∧ ((∀ m0 rate elapsed, after.ramps[c] ≠ .muting m0 rate false elapsed)
            ∨ before.stopCounts c = true ∨ after.stopCounts c = false → v = after.ramps[c]))
      ∧ (after.request c = true ↔ after.flags[c] = true ∨ (after.stopActive = true ∧ after.exempt[c] = false)
          ∨ ∃ g : MuteGroup, after.muteSets[c].getLsbD g.val = true ∧ after.groupStates[g] = .mute))
    ∧ ∀ (s : State) (c : Channel), s.inReset = false →
      (∀ start rate mark elapsed, s.mute.ramps[c] = .muting start rate mark elapsed → start ≤ 1000 →
        1000 - start ≤ 1000 * elapsed / rate →
        exec (.rampArrival c) s = .next { s with mute := { s.mute with ramps := s.mute.ramps.set c .muted } }
          ∧ s.mute.ramps[c].attenuation = 1000)
      ∧ ∀ start rate elapsed, s.mute.ramps[c] = .opening start rate elapsed → start ≤ 1000 * elapsed / rate →
        exec (.rampArrival c) s = .next { s with mute := { s.mute with ramps := s.mute.ramps.set c .opened } }
          ∧ s.mute.ramps[c].attenuation = 0

/-- STOP SET, STOP RELEASE and the STOP line change their reason alone, ramps follow the requests, and show-stop
becoming active holds the show; the orders are taken in LOCAL mode too (R131–R133, R61). -/
def Obligations.ShowStop : Prop :=
  ∀ (s : State) (flag : Bool) (line : Level),
    let after := { s.mute with stopFlag := flag, stopLine := line }
    let t := { s with mute := { after with ramps := Vector.ofFn fun c => rampAfter s.mute after c } }
    let active := flag || (line == .low)
    let u := if s.mute.stopActive = false ∧ active = true then actHold t else t
    let result := fun (f : OrderFrame) (i : Instr) (kind : Byte) =>
      TakenAs i kind f s [if flag then 1 else 0, if active then 1 else 0] u
    (∀ f, f.payload = [] → line = s.mute.stopLine → flag = true → result f (.stopSet f) 0x16)
    ∧ (∀ f, f.payload = [] → line = s.mute.stopLine → flag = false → result f (.stopRelease f) 0x17)
    ∧ (s.inReset = false → flag = s.mute.stopFlag → line = .low → exec .stopLineFall s = .next (noteChanges s u))
    ∧ (s.inReset = false → flag = s.mute.stopFlag → line = .high → exec .stopLineRise s = .next (noteChanges s u))

/-! ### The output -/

/-- The slot map: the lowest-numbered enabled window that covers a channel maps it (R144, R145). WINDOW SET and WINDOW
CLEAR are taken unless a slot below 128 would be fed twice; the lowest such slot is answered (R146, R147), in one byte
by the model's reading (log 8). -/
def Obligations.WindowOrdersTaken : Prop :=
  (∀ (ws : Vector (Option Window) 8) (c : Channel),
      (∀ (n : Fin 8) (w : Window), ws[n] = some w → w.first ≤ c.val + 1 → c.val + 1 ≤ w.last →
        (∀ k : Fin 8, k < n → ∀ v, ws[k] = some v → ¬(v.first ≤ c.val + 1 ∧ c.val + 1 ≤ v.last)) →
        slotOf ws c = some (w.base + (c.val + 1 - w.first)) ∧ channelLocked ws c = w.lock)
      ∧ ((∀ (n : Fin 8) (w : Window), ws[n] = some w → ¬(w.first ≤ c.val + 1 ∧ c.val + 1 ≤ w.last)) →
        slotOf ws c = none ∧ channelLocked ws c = false))
    ∧ ∀ (f : OrderFrame) (s : State) (n : Fin 8) (entry : Option Window), s.sup.localMode = false →
      byteAt f.payload 0 = n.val →
      let ws := s.out.windows.set n entry
      let fedTwice := fun (slot : Nat) => ∃ c d : Channel, c ≠ d ∧ slotOf ws c = some slot ∧ slotOf ws d = some slot
      let mapped := ((List.finRange 64).filter fun c => (slotOf ws c).isSome).length
      let locked := ((List.finRange 64).filter fun c => channelLocked ws c).length
      let outcome := fun (i : Instr) (kind : Byte) =>
        ((∀ slot < 128, ¬fedTwice slot) →
          TakenAs i kind f s [nat8 mapped, nat8 locked] { s with out := { s.out with windows := ws } })
        ∧ ∀ slot < 128, fedTwice slot → (∀ k < slot, ¬fedTwice k) → RefusedAs i kind f s .slotClash [nat8 slot]
      (∀ w, f.payload.length = 5 → entry = some w → WindowLegal w → byteAt f.payload 1 = w.first →
        byteAt f.payload 2 = w.last → byteAt f.payload 3 = w.base → byteAt f.payload 4 = (if w.lock then 1 else 0) →
        outcome (.windowSet f) 0x50)
      ∧ (f.payload.length = 1 → entry = none → outcome (.windowClear f) 0x51)

/-- OUTPUT CONFIG acts on the timer by the table of R150; an expiry builds one frame, advances the counter modulo 256
and schedules the next expiry; fields out of range of the output's orders are refused (R146, R147, R149–R152). -/
def Obligations.OutputTimerRuns : Prop :=
  (∀ s : State,
      (∀ f, s.sup.localMode = false → f.payload.length = 2 → byteAt f.payload 0 ∈ [1, 2, 5, 10] →
        let period := byteAt f.payload 0
        (byteAt f.payload 1 = 1 → TakenAs (.outputConfig f) 0x52 f s [nat8 period, 1] { s with out := { s.out with
          period := period, enabled := true
          next := some (match s.out.next with | some instant => instant | none => s.clock + BitVec.ofNat 32 period) } })
        ∧ (byteAt f.payload 1 = 0 → TakenAs (.outputConfig f) 0x52 f s [nat8 period, 0]
          { s with out := { s.out with period := period, enabled := false, next := none } }))
      ∧ (s.inReset = false → s.out.next = some s.clock →
        ∃ frame, exec .outputPeriodExpiry s = .next { s with out := { s.out with
            gainOut := some frame, counter := s.out.counter + 1
            next := some (s.clock + BitVec.ofNat 32 s.out.period) } }
          ∧ frame.counter = s.out.counter
          ∧ ∀ slot : Fin 128,
            (∀ c : Channel, slotOf s.out.windows c = some slot.val →
              (∀ d : Channel, slotOf s.out.windows d = some slot.val → d = c) →
              frame.codes[slot] = combine (effective s (channelTarget c))
                (s.mute.groups[c].map fun g => effective s (groupTarget g)) s.mute.ramps[c].attenuation)
            ∧ ((∀ c : Channel, slotOf s.out.windows c ≠ some slot.val) → frame.codes[slot] = .off)))
    ∧ ∀ (f : OrderFrame) (s : State), s.sup.localMode = false →
      let p := f.payload
      (p.length = 5 → 7 < byteAt p 0 ∨ byteAt p 1 = 0 ∨ 64 < byteAt p 1 ∨ byteAt p 2 = 0 ∨ 64 < byteAt p 2
          ∨ byteAt p 2 < byteAt p 1 ∨ 127 < byteAt p 3 ∨ 127 < byteAt p 3 + (byteAt p 2 - byteAt p 1) ∨ 1 < byteAt p 4 →
        RefusedAs (.windowSet f) 0x50 f s .range [])
      ∧ (p.length = 1 → 7 < byteAt p 0 → RefusedAs (.windowClear f) 0x51 f s .range [])
      ∧ (p.length = 2 → byteAt p 0 ∉ [1, 2, 5, 10] ∨ 1 < byteAt p 1 → RefusedAs (.outputConfig f) 0x52 f s .range [])

/-! ### Supervision and status -/

/-- The question never becomes 0, advances by shift and feedback bit, and is answered as the manual's table says
(R170). HEARTBEAT is judged EARLY, GOOD or WRONG against the running window, which it ends; with supervision disabled
it changes nothing and answers WRONG, the question, 0 and OFF; a window that ends without one raises the counter and
starts a new window (R169, R171, R172). -/
def Obligations.HeartbeatsJudged : Prop :=
  ((∀ q : Byte, q ≠ 0 → nextQuestion q ≠ 0)
      ∧ (∀ q : Byte, (nextQuestion q).toNat = 2 * q.toNat % 256 +
          ((q.getLsbD 7).toNat + (q.getLsbD 5).toNat + (q.getLsbD 4).toNat + (q.getLsbD 3).toNat) % 2)
      ∧ (∀ q key : Byte, expectedAnswer q key = BitVec.ofNat 8 ((5 * q.toNat + 0x3B) % 256) ^^^ key)
      ∧ firstQuestion 0 = 1 ∧ (∀ seed : Byte, seed ≠ 0 → firstQuestion seed = seed)
      ∧ expectedAnswer 0x2C 0xA0 = 0xB7 ∧ expectedAnswer 0x58 0xA0 = 0x53 ∧ expectedAnswer 0xB0 0xA0 = 0x0B
      ∧ nextQuestion 0x2C = 0x58 ∧ nextQuestion 0x58 = 0xB0 ∧ nextQuestion 0xB0 = 0x61)
    ∧ (∀ (f : OrderFrame) (b : Byte) (s : State), f.payload = [b] →
        (s.sup.window = none →
          ReadAs (.heartbeat f) 0x60 f s [2, s.sup.question, nat8 s.sup.counter, s.sup.link.code] s
            ∧ (LinkStateLegal s → ReadAs (.heartbeat f) 0x60 f s [2, s.sup.question, 0, 0] s))
        ∧ ∀ w, s.sup.window = some w →
          let outcome := fun (verdict : Byte) (counter : Nat) (question : Byte) =>
            let t := relink { s with sup := { s.sup with
              counter := counter, question := question, window := some ⟨s.sup.config.window, 0⟩ } }
            ReadAs (.heartbeat f) 0x60 f s [verdict, question, nat8 counter, t.sup.link.code] t
          (w.elapsed < w.length / 4 → outcome 1 (min 15 (s.sup.counter + 1)) s.sup.question)
          ∧ (w.length / 4 ≤ w.elapsed → b = expectedAnswer s.sup.question s.sup.config.key →
              outcome 0 (s.sup.counter - 1) (nextQuestion s.sup.question))
          ∧ (w.length / 4 ≤ w.elapsed → b ≠ expectedAnswer s.sup.question s.sup.config.key →
              outcome 2 (min 15 (s.sup.counter + 1)) s.sup.question))
      ∧ ∀ (s : State) (w : SupervisionWindow), s.inReset = false → s.sup.window = some w → w.length ≤ w.elapsed →
        exec .windowExpiry s = .next (noteChanges s (relink { s with sup := { s.sup with
          counter := min 15 (s.sup.counter + 1), window := some ⟨s.sup.config.window, 0⟩ } }))

/-- The link state found again from the counter, T and the state before, and what each change latches and runs
(R172, R173). -/
def Obligations.LinkStateFound : Prop :=
  ∀ s : State,
    let c := s.sup.counter
    let threshold := s.sup.config.threshold
    let at_ := fun (link : LinkState) => { s with sup := { s.sup with link := link } }
    (s.sup.link = .linked ∨ s.sup.link = .degraded ∨ s.sup.link = .lost → c = 0 → relink s = at_ .linked)
    ∧ (s.sup.link = .lost → c ≠ 0 → relink s = s)
    ∧ (s.sup.link = .linked → c ≠ 0 → c < threshold → relink s = latch .linkDegraded (at_ .degraded))
    ∧ (s.sup.link = .degraded → c ≠ 0 → c < threshold → relink s = s)
    ∧ (s.sup.link = .linked ∨ s.sup.link = .degraded → c ≠ 0 → threshold ≤ c →
      let entered := latch .linkLost (at_ .lost)
      let isolated := { entered with sup := { entered.sup with localMode := true } }
      (s.sup.config.action = .report → relink s = entered)
      ∧ (s.sup.config.action = .localMode → relink s = isolated)
      ∧ (s.sup.config.action = .safe → isStored s.cues.table s.sup.config.safeCue = false →
          relink s = latch .noSafeCue isolated)
      ∧ (s.sup.config.action = .safe → isStored s.cues.table s.sup.config.safeCue = true →
          relink s = { isolated with play := { s.play with
            follow := none
            state := .resolving ⟨s.sup.config.safeCue, s.sup.config.safeTime, s.clock,
              match s.play.state with
              | .resolving r => r.holdRequested
              | _ => false⟩ } }))

/-- SUPERVISION CONFIG by the enable before and after, or RANGE (R168, R170). -/
def Obligations.SupervisionConfigured : Prop :=
  ∀ (f : OrderFrame) (s : State), f.payload.length = 11 → s.sup.localMode = false →
    let p := f.payload
    let fits := byteAt p 0 ≤ 1 ∧ wordAt p 1 ∈ [100, 250, 500, 1000, 2500] ∧ 1 ≤ byteAt p 3 ∧ byteAt p 3 ≤ 15
      ∧ byteAt p 4 ≤ 2 ∧ wordAt p 5 ≤ 60000
    (¬fits → RefusedAs (.supervisionConfig f) 0x61 f s .range [])
    ∧ ∀ action, fits → actionOf (byteAt p 4) = some action →
      let c : SupervisionConfig :=
        { enable := byteAt p 0 == 1, window := wordAt p 1, threshold := byteAt p 3, action := action
          safeCue := wordAt p 5, safeTime := min (wordAt p 7) 9999, key := p.getD 9 0, seed := p.getD 10 0 }
      let taken := TakenAs (.supervisionConfig f) 0x61 f s []
      (s.sup.window = none → c.enable = true → taken { s with sup := { s.sup with
        config := c, counter := 0, question := if c.seed = 0 then 1 else c.seed, link := .linked
        window := some ⟨c.window, 0⟩ } })
      ∧ (s.sup.window ≠ none → c.enable = true → taken (relink { s with sup := { s.sup with config := c } }))
      ∧ (s.sup.window ≠ none → c.enable = false →
          taken { s with sup := { s.sup with config := c, window := none, counter := 0, link := .off } })
      ∧ (s.sup.window = none → c.enable = false → taken { s with sup := { s.sup with config := c } })

/-- RECLAIM clears LOCAL mode on a LINKED link, is refused with NOT_LINKED on a DEGRADED or LOST one, and outside LOCAL
mode changes nothing (R175). -/
def Obligations.ReclaimTaken : Prop :=
  ∀ (f : OrderFrame) (s : State), f.payload = [] →
    (s.sup.localMode = true → s.sup.link = .linked →
      TakenAs (.reclaim f) 0x62 f s [] { s with sup := { s.sup with localMode := false } })
    ∧ (s.sup.localMode = true → s.sup.link = .degraded ∨ s.sup.link = .lost →
      RefusedAs (.reclaim f) 0x62 f s .notLinked [])
    ∧ (s.sup.localMode = false → TakenAs (.reclaim f) 0x62 f s [] s)

/-- STATUS READ reports as things stand and clears what it reports under READ_CLEARS alone (R182). -/
def Obligations.StatusReadReports : Prop :=
  ∀ (f : OrderFrame) (s : State), f.payload = [] →
    ReadAs (.statusRead f) 0x70 f s
      ([(present s).code, s.sup.link.code] ++ nat16 s.status.latch.toNat ++ nat16 s.fade.lastCompleted
        ++ nat16 s.play.current ++ nat16 (standbyNumber s) ++ [nat8 s.fade.entries.length] ++ nat16 s.link.collisions)
      (match s.status.policy with
        | .orderClears => s
        | .readClears => { s with status := { s.status with latch := 0 } })

/-- STATUS CLEAR, STATUS MASK and ATTENTION CONFIG change their own part of the Status Unit, in LOCAL mode too; an
ATTN pulse ends; ADDRESS MASK SET stores its five bits (R159, R180, R181, R183). A latched event stays until cleared,
a passage of an unmasked event in PULSE mode counts one pulse up to 255, and in LEVEL mode ATTN is low exactly while
an unmasked event is latched (R178, R180). -/
def Obligations.StatusOrdersTaken : Prop :=
  (∀ (f : OrderFrame) (s : State),
      let n := wordAt f.payload 0
      (f.payload.length = 2 →
        (n < 8192 →
          TakenAs (.statusClear f) 0x71 f s []
            { s with status := { s.status with latch := s.status.latch &&& ~~~(BitVec.ofNat 13 n) } }
          ∧ TakenAs (.statusMask f) 0x72 f s [] { s with status := { s.status with mask := BitVec.ofNat 13 n } })
        ∧ (8192 ≤ n →
          RefusedAs (.statusClear f) 0x71 f s .range [] ∧ RefusedAs (.statusMask f) 0x72 f s .range [])
        ∧ (1 < byteAt f.payload 0 ∨ 1 < byteAt f.payload 1 → RefusedAs (.attentionConfig f) 0x73 f s .range [])
        ∧ ∀ mode policy, modeOf (byteAt f.payload 0) = some mode → policyOf (byteAt f.payload 1) = some policy →
          TakenAs (.attentionConfig f) 0x73 f s [] { s with status := { s.status with
            mode := mode, policy := policy, pulses := if mode = s.status.mode then s.status.pulses else 0 } })
      ∧ (s.inReset = false → s.status.mode = .pulse → 0 < s.status.pulses →
          exec .attnPulse s = .next { s with status := { s.status with pulses := s.status.pulses - 1 } }))
    ∧ (∀ (f : OrderFrame) (b : Byte) (s : State), f.payload = [b] → s.sup.localMode = false →
      (b.toNat < 32 → TakenAs (.addressMaskSet f) 0x74 f s [b] { s with link := { s.link with mask := b.setWidth 5 } })
        ∧ (32 ≤ b.toNat → RefusedAs (.addressMaskSet f) 0x74 f s .range []))
    ∧ (∀ (u : StatusUnit) (e d : Event), (u.record e).latched d = (u.latched d || decide (d = e)))
      ∧ (∀ (u : StatusUnit) (e : Event), (u.record e).pulses =
          if u.latched e = false ∧ u.mode = .pulse ∧ u.masked e = false then min 255 (u.pulses + 1) else u.pulses)
      ∧ ∀ s : State, s.inReset = false → s.status.mode = .level →
          (attnLine s = .low ↔ ∃ e : Event, s.status.latched e = true ∧ s.status.masked e = false)

/-- The present-state set as its owners hold it; STATE_CHANGED is latched exactly when an event changed a condition or
the link state, so after a command other than the resets and the broken frames, whose bytes may hold whole orders, a
changed set finds it latched (R177). -/
def Obligations.PresentStatesNoted : Prop :=
  (∀ s : State,
      ((present s).surface = true ↔ s.surface.silence ≠ none)
      ∧ ((present s).held = true ↔ s.play.state = .held)
      ∧ ((present s).resolving = true ↔ ∃ r, s.play.state = .resolving r)
      ∧ ((present s).stopActive = true ↔ s.mute.stopFlag = true ∨ s.mute.stopLine = .low)
      ∧ (present s).localMode = s.sup.localMode
      ∧ ((present s).editOpen = true ↔ s.cues.edit ≠ none)
      ∧ (present s).link = s.sup.link)
    ∧ (∀ before after : State,
      (present before = present after → noteChanges before after = after)
      ∧ (present before ≠ present after →
        noteChanges before after = { after with status := after.status.record .stateChanged }))
    ∧ ∀ (i : Instr) (s t : State), i ≠ .fullReset → (∀ p g l, i ≠ .fullResetEnd p g l) →
      (∀ r b k, i ≠ .frameAbandon r b k) → (∀ r, i ≠ .frameGapExpiry r) → exec i s = .next t →
      present s ≠ present t → t.status.latched .stateChanged = true

/-! ### What commands leave unchanged -/

/-- No command but the two of a full reset changes the queue, the clock, the reset, the model's counter or the unit
address; and each family of orders, in every state of the port, leaves the blocks the manual gives it no effect on. -/
def Obligations.CommandsKeepOtherBlocks : Prop :=
  (∀ (i : Instr) (s t : State), i ≠ .fullReset → (∀ p g l, i ≠ .fullResetEnd p g l) → exec i s = .next t →
      t.pending = s.pending ∧ t.inReset = s.inReset ∧ t.clock = s.clock ∧ t.choices = s.choices
        ∧ t.link.address = s.link.address)
    ∧ ∀ (i : Instr) (kind : Byte) (f : OrderFrame) (s t : State), i.order? = some (kind, f) → exec i s = .next t →
      (kind ∈ [0x27, 0x28, 0x29, 0x33, 0x70, 0x71, 0x72, 0x73, 0x74] →
        t.cues = s.cues ∧ t.play = s.play ∧ t.fade = s.fade ∧ t.own = s.own ∧ t.surface = s.surface ∧ t.mute = s.mute
          ∧ t.out = s.out ∧ t.sup = s.sup)
      ∧ (kind ∈ [0x20, 0x21, 0x22, 0x23, 0x24, 0x25, 0x26] →
        t.play = { s.play with standby := t.play.standby } ∧ t.fade = s.fade ∧ t.own = s.own ∧ t.surface = s.surface
          ∧ t.mute = s.mute ∧ t.out = s.out ∧ t.sup = s.sup ∧ t.link.mask = s.link.mask)
      ∧ (kind ∈ [0x10, 0x11, 0x12, 0x13, 0x14, 0x15, 0x75] →
        t.cues = s.cues ∧ t.own = s.own ∧ t.surface = s.surface ∧ t.out = s.out ∧ t.sup = s.sup
          ∧ t.fade.base = s.fade.base ∧ t.fade.lastCompleted = s.fade.lastCompleted ∧ t.link.mask = s.link.mask)
      ∧ (kind ∈ [0x11, 0x12, 0x13, 0x14, 0x15, 0x75] → t.fade = s.fade ∧ t.mute = s.mute)
      ∧ (kind ∈ [0x16, 0x17, 0x34, 0x35, 0x36, 0x37, 0x38] →
        t.cues = s.cues ∧ t.fade = s.fade ∧ t.own = s.own ∧ t.surface = s.surface ∧ t.out = s.out ∧ t.sup = s.sup
          ∧ t.play = { s.play with state := t.play.state, freeze := t.play.freeze } ∧ t.link.mask = s.link.mask)
      ∧ (kind ∈ [0x31, 0x32, 0x40, 0x41, 0x42] →
        t.cues = s.cues ∧ t.play = s.play ∧ t.fade = s.fade ∧ t.surface = s.surface ∧ t.mute = s.mute ∧ t.out = s.out
          ∧ t.sup = s.sup ∧ t.link.mask = s.link.mask)
      ∧ (kind ∈ [0x50, 0x51, 0x52] →
        t.cues = s.cues ∧ t.play = s.play ∧ t.fade = s.fade ∧ t.own = s.own ∧ t.surface = s.surface ∧ t.mute = s.mute
          ∧ t.sup = s.sup ∧ t.link.mask = s.link.mask)
      ∧ (kind ∈ [0x60, 0x61, 0x62] →
        t.cues = s.cues ∧ t.fade = s.fade ∧ t.own = s.own ∧ t.surface = s.surface ∧ t.mute = s.mute ∧ t.out = s.out
          ∧ t.play = { s.play with state := t.play.state, follow := t.play.follow } ∧ t.link.mask = s.link.mask)

/-! ### Invariants -/

/-- Every step keeps every position within 0–1023 (R3). -/
def Obligations.PositionsKept : Prop :=
  ∀ s t : State, PositionsInScale s → step s = .next t → PositionsInScale t

/-- Every step keeps the cue table ordered and within 500 records, its records legal, and free moves plus held moves
at 6000 (R22, R23). -/
def Obligations.CueStoreKept : Prop :=
  ∀ s t : State, CueStoreLegal s.cues → step s = .next t → CueStoreLegal t.cues

/-- Every step keeps one entry of each phase per target, the playback state and the freeze in agreement with the table,
the pointers stored and a resolution within 20 ms (R42, R43, R45, R69, R91). -/
def Obligations.PlaybackKept : Prop :=
  ∀ s t : State, step s = .next t →
    (FadeTableKeyed s → FadeTableKeyed t) ∧ (StateFollowsTable s → StateFollowsTable t)
      ∧ (FreezeFollowsState s → FreezeFollowsState t) ∧ (PointersStored s → PointersStored t)
      ∧ (ResolutionWithinBound s → ResolutionWithinBound t)

/-- Every step keeps strips and owners in agreement and a target at most once on a page (R105, R106). -/
def Obligations.OwnershipKept : Prop :=
  ∀ s t : State, step s = .next t →
    (StripsOwnTheirTargets s → StripsOwnTheirTargets t) ∧ (PagesDistinct s → PagesDistinct t)

/-- Every step keeps every mute ramp going toward what its request asks, and the membership lists legal (R126, R136,
R138); every slot fed by at most one channel (R144); the link state in agreement with the counter, T and the window, the
question away from 0, the counts at their limits (R164, R170, R172, R180); and, while a full reset lasts, every block at
its initial value (R2). -/
def Obligations.UnitsKept : Prop :=
  (∀ s t : State, step s = .next t →
      (RampsFollowRequests s → RampsFollowRequests t) ∧ (MembershipsLegal s → MembershipsLegal t))
    ∧ (∀ s t : State, SlotsFedOnce s → step s = .next t → SlotsFedOnce t)
    ∧ (∀ s t : State, step s = .next t →
      (LinkStateLegal s → LinkStateLegal t) ∧ (CountsBounded s → CountsBounded t))
    ∧ ∀ s t : State, HeldWhileInReset s → step s = .next t → HeldWhileInReset t

/-- The invariants hold right after a full reset. -/
def Obligations.InvariantsHoldAtReset : Prop :=
  let s := State.reset
  PositionsInScale s ∧ CueStoreLegal s.cues ∧ FadeTableKeyed s ∧ StateFollowsTable s ∧ FreezeFollowsState s
    ∧ PointersStored s ∧ ResolutionWithinBound s ∧ StripsOwnTheirTargets s ∧ PagesDistinct s ∧ RampsFollowRequests s
    ∧ MembershipsLegal s ∧ SlotsFedOnce s ∧ LinkStateLegal s ∧ CountsBounded s ∧ HeldWhileInReset s
end

