-- ==== Sys2Proof/Laws/Ops.lean ====
section
/-! SUPPORT. What the shared operations over the blocks do, one lemma each. -/

namespace Sys2Proof.Machine

/-! ### Fade table -/

theorem mem_dropWaiting {u : FadeEngine} {t : Target} {e : FadeEntry} :
    e ∈ (u.dropWaiting t).entries ↔ e ∈ u.entries ∧ (e.target = t → e.isRunning = true) := by
  simp [FadeEngine.dropWaiting, Decidable.imp_iff_not_or]

theorem mem_dropRunning {u : FadeEngine} {t : Target} {e : FadeEntry} :
    e ∈ (u.dropRunning t).entries ↔ e ∈ u.entries ∧ (e.target = t → e.isRunning = false) := by
  simp [FadeEngine.dropRunning, Decidable.imp_iff_not_or]

theorem mem_dropAll {u : FadeEngine} {t : Target} {e : FadeEntry} :
    e ∈ (u.dropAll t).entries ↔ e ∈ u.entries ∧ e.target ≠ t := by
  simp [FadeEngine.dropAll]

@[simp] theorem append_entries (u : FadeEngine) (e : FadeEntry) : (u.append e).entries = u.entries ++ [e] := rfl

@[simp] theorem setRest_entries (u : FadeEngine) (t : Target) (p : Nat) : (u.setRest t p).entries = u.entries := rfl

theorem setRest_get (u : FadeEngine) (t x : Target) (p : Nat) :
    (u.setRest t p).rest[x] = if x = t then p else u.rest[x] := by
  simp only [FadeEngine.setRest, Fin.getElem_fin, Vector.getElem_set, Fin.ext_iff]
  split <;> split <;> first | rfl | omega

/-! ### Ownership -/

theorem setOwner_get (u : Ownership) (t x : Target) (o : Owner) :
    (u.setOwner t o).owners[x] = if x = t then o else u.owners[x] := by
  simp only [Ownership.setOwner, Fin.getElem_fin, Vector.getElem_set, Fin.ext_iff]
  split <;> split <;> first | rfl | omega

@[simp] theorem setOwner_strips (u : Ownership) (t : Target) (o : Owner) : (u.setOwner t o).strips = u.strips := rfl

theorem setStrip_get (u : Ownership) (i x : Strip) (r : StripRecord) :
    (u.setStrip i r).strips[x] = if x = i then r else u.strips[x] := by
  simp only [Ownership.setStrip, Fin.getElem_fin, Vector.getElem_set, Fin.ext_iff]
  split <;> split <;> first | rfl | omega

@[simp] theorem setStrip_owners (u : Ownership) (i : Strip) (r : StripRecord) :
    (u.setStrip i r).owners = u.owners := rfl

/-- A let-go gives the target GLIDE or AUTO and leaves every other record (R104). -/
theorem letGo_get (u : Ownership) (t x : Target) (p : Nat) :
    (u.letGo t p).owners[x] = if x = t then u.released p else u.owners[x] :=
  setOwner_get u t x _

/-- A let-go never leaves the target OPERATOR. -/
theorem released_ne_operator (u : Ownership) (p : Nat) (i : Strip) : u.released p ≠ .operator i := by
  unfold Ownership.released; split <;> simp

/-! ### Mutes -/

@[simp] theorem reevaluate_ramps_get (before after : MuteUnit) (c : Channel) :
    (reevaluate before after).ramps[c] = rampAfter before after c := by
  simp [reevaluate]

@[simp] theorem reevaluate_stopActive (before after : MuteUnit) :
    (reevaluate before after).stopActive = after.stopActive := by
  simp only [reevaluate, MuteUnit.stopActive]

@[simp] theorem reevaluate_request (before after : MuteUnit) (c : Channel) :
    (reevaluate before after).request c = after.request c := by
  simp only [reevaluate, MuteUnit.request, MuteUnit.groupMuted, MuteUnit.stopCounts, MuteUnit.stopActive]

/-- One mute subject's state leaves both reasons of show-stop alone. -/
@[simp] theorem setSubject_stopActive (u : MuteUnit) (x : MuteSubject) (m : MuteState) :
    (u.setSubject x m).stopActive = u.stopActive := by
  cases x <;> rfl

/-- The mute actions of a firing leave show-stop as it is. -/
@[simp] theorem applyActions_stopActive (u : MuteUnit) (actions : List MuteAction) :
    (u.applyActions actions).stopActive = u.stopActive := by
  unfold MuteUnit.applyActions
  rw [reevaluate_stopActive]
  generalize hv : u.stopActive = b
  induction actions generalizing u with
  | nil => exact hv
  | cons a rest ih => exact ih _ ((setSubject_stopActive u a.subject a.state).trans hv)

/-! ### Firing (R71) -/

/-- The moves of a firing change the fade engine and the latch alone. -/
theorem fireMoves_eq (r : CueRecord) (s : State) :
    fireMoves r s = { s with fade := (fireMoves r s).fade, status := (fireMoves r s).status } := by
  unfold fireMoves
  generalize r.moves = moves
  induction moves generalizing s with
  | nil => rfl
  | cons m rest ih =>
    simp only [List.foldl_cons]
    rw [ih]
    unfold fireMove
    split <;> rfl

/-! ### Supervision (R172) -/

/-- Finding the link state again leaves question, counter, window and configuration alone. -/
theorem relink_sup (s : State) :
    (relink s).sup.question = s.sup.question ∧ (relink s).sup.counter = s.sup.counter
      ∧ (relink s).sup.window = s.sup.window ∧ (relink s).sup.config = s.sup.config := by
  unfold relink
  simp only
  split
  · exact ⟨rfl, rfl, rfl, rfl⟩
  split
  · unfold lossAction
    split
    · exact ⟨rfl, rfl, rfl, rfl⟩
    · exact ⟨rfl, rfl, rfl, rfl⟩
    · split <;> exact ⟨rfl, rfl, rfl, rfl⟩
  · exact ⟨rfl, rfl, rfl, rfl⟩
  · exact ⟨rfl, rfl, rfl, rfl⟩
  · exact ⟨rfl, rfl, rfl, rfl⟩

/-! ### Show-stop (R133, R61) -/

/-- A change of show-stop acts as a hold exactly when it makes show-stop active. -/
theorem changeStop_eq (change : MuteUnit → MuteUnit) (s : State) :
    changeStop change s =
      if s.mute.stopActive = false ∧ (change s.mute).stopActive = true
      then actHold { s with mute := reevaluate s.mute (change s.mute) }
      else { s with mute := reevaluate s.mute (change s.mute) } := by
  simp [changeStop]

/-! ### The idle step (log 1, log 2) -/

/-- The event taken first is one of those that fall. -/
theorem firstTaken_mem (choices : Nat) (event : Instr) (rest : List Instr) :
    firstTaken choices event rest ∈ event :: rest := by
  have h : Config.takenFirst choices % (rest.length + 1) < (event :: rest).length :=
    Nat.mod_lt _ (Nat.succ_pos _)
  rw [firstTaken, List.getD_eq_getElem?_getD, List.getElem?_eq_getElem h, Option.getD_some]
  exact List.getElem_mem h

/-- With an event due, one is queued and nothing else happens. -/
theorem idle_due {s : State} (hr : s.inReset = false) (h : forcedEvents s ++ freeEvents s ≠ []) :
    ∃ e ∈ forcedEvents s ++ freeEvents s, idle s = { s with pending := [e], choices := s.choices + 1 } := by
  rcases hev : forcedEvents s ++ freeEvents s with _ | ⟨event, rest⟩
  · exact absurd hev h
  · exact ⟨_, firstTaken_mem s.choices event rest, by simp [idle, hr, hev]⟩

/-- With no event due, one millisecond passes. -/
theorem idle_passes {s : State} (hr : s.inReset = false) (h : forcedEvents s ++ freeEvents s = []) :
    idle s = { advance s with choices := s.choices + 1 } := by
  simp [idle, hr, h]

/-- An event listed if it is due is listed exactly while it is. -/
theorem mem_when {due : Bool} {i j : Instr} : j ∈ when due i ↔ due = true ∧ j = i := by
  unfold when; split <;> simp_all

/-- The event of a fade entry: its delay's end or its completion (R70). -/
theorem mem_dueEvent {e : FadeEntry} {j : Instr} :
    j ∈ e.dueEvent ↔ (e.phase = .waiting 0 ∧ j = .delayExpiry e.target)
      ∨ ∃ start elapsed, e.phase = .running start elapsed ∧ e.duration ≤ elapsed ∧ j = .fadeCompletion e.target := by
  unfold FadeEntry.dueEvent
  rw [mem_when]
  unfold FadeEntry.arrived FadeEntry.isRunning
  cases h : e.phase with
  | waiting delay => simp
  | running start elapsed =>
    simp only [decide_eq_true_eq, reduceIte, reduceCtorEq, false_and, false_or]
    exact ⟨fun h => ⟨start, elapsed, rfl, h⟩, by rintro ⟨_, _, ⟨⟩, h⟩; exact h⟩

/-! ### Cue table (R22) -/

theorem mem_removeCue {n : Nat} {table : List CueRecord} {r : CueRecord} :
    r ∈ removeCue n table ↔ r ∈ table ∧ r.number ≠ n := by
  simp [removeCue]

/-- A record entering an ordered table is one of its records, with those of other numbers. -/
theorem mem_insertCue {r x : CueRecord} {table : List CueRecord}
    (h : table.Pairwise fun a b => a.number < b.number) :
    x ∈ insertCue r table ↔ x = r ∨ (x ∈ table ∧ x.number ≠ r.number) := by
  induction table with
  | nil => simp [insertCue]
  | cons c rest ih =>
    have hc : ∀ a ∈ rest, c.number < a.number := (List.pairwise_cons.mp h).1
    have ih := ih (List.pairwise_cons.mp h).2
    unfold insertCue
    split
    · rename_i hlt
      simp only [List.mem_cons]
      constructor
      · rintro (rfl | rfl | hx)
        · exact .inl rfl
        · exact .inr ⟨.inl rfl, by omega⟩
        · exact .inr ⟨.inr hx, by have := hc x hx; omega⟩
      · rintro (rfl | ⟨rfl | hx, _⟩)
        · exact .inl rfl
        · exact .inr (.inl rfl)
        · exact .inr (.inr hx)
    split
    · rename_i heq
      simp only [List.mem_cons]
      constructor
      · rintro (rfl | hx)
        · exact .inl rfl
        · exact .inr ⟨.inr hx, by have := hc x hx; omega⟩
      · rintro (rfl | ⟨rfl | hx, hne⟩)
        · exact .inl rfl
        · exact absurd heq.symm hne
        · exact .inr hx
    · rename_i hne
      simp only [List.mem_cons, ih]
      constructor
      · rintro (rfl | rfl | ⟨hx, hn⟩)
        · exact .inr ⟨.inl rfl, fun e => hne e.symm⟩
        · exact .inl rfl
        · exact .inr ⟨.inr hx, hn⟩
      · rintro (rfl | ⟨rfl | hx, hn⟩)
        · exact .inr (.inl rfl)
        · exact .inl rfl
        · exact .inr (.inr ⟨hx, hn⟩)

end Sys2Proof.Machine
end

