-- ==== Sys2Proof/Laws/CueTable.lean ====
section
/-! SUPPORT. What the lookups and changes of the ordered cue table give (R22), one lemma each. -/

namespace Sys2Proof.Machine

/-- The record found under a number is the one stored with it. -/
theorem findCue_eq_some {table : List CueRecord} (h : table.Pairwise (fun a b => a.number < b.number)) (n : Nat)
    (r : CueRecord) : findCue table n = some r ↔ r ∈ table ∧ r.number = n := by
  unfold findCue
  induction table with
  | nil => simp
  | cons c rest ih =>
    have hc := (List.pairwise_cons.mp h).1
    have ih := ih (List.pairwise_cons.mp h).2
    simp only [List.find?_cons]
    by_cases e : c.number = n
    · simp [e]
      constructor
      · rintro rfl; exact ⟨.inl rfl, e⟩
      · rintro ⟨rfl | hr, h2⟩
        · rfl
        · have := hc r hr; omega
    · simp [e, ih]
      rintro rfl rfl; exact absurd rfl e

/-- Next after n: the lowest stored number above it. -/
theorem nextAfter_eq_some {table : List CueRecord} (h : table.Pairwise (fun a b => a.number < b.number)) (n k : Nat) :
    nextAfter table n = some k ↔
        n < k ∧ (∃ r ∈ table, r.number = k) ∧ ∀ r ∈ table, n < r.number → k ≤ r.number := by
  unfold nextAfter
  induction table with
  | nil => simp
  | cons c rest ih =>
    have hc := (List.pairwise_cons.mp h).1
    have ih := ih (List.pairwise_cons.mp h).2
    simp only [List.find?_cons]
    by_cases e : n < c.number
    · simp [e]
      constructor
      · rintro rfl; exact ⟨e, .inl rfl, Nat.le_refl _, fun a ha _ => Nat.le_of_lt (hc a ha)⟩
      · rintro ⟨h1, h2 | ⟨r, h2, h3⟩, h4, h5⟩
        · exact h2
        · have := hc r h2; omega
    · simp [e, ih]
      intro h1 _ h2; omega

/-- Last before n: the highest stored number below it. -/
theorem lastBefore_eq_some {table : List CueRecord} (h : table.Pairwise (fun a b => a.number < b.number)) (n k : Nat) :
    lastBefore table n = some k ↔
        k < n ∧ (∃ r ∈ table, r.number = k) ∧ ∀ r ∈ table, r.number < n → r.number ≤ k := by
  unfold lastBefore
  have hp : (table.filter fun r => decide (r.number < n)).Pairwise (fun a b => a.number < b.number) := h.filter _
  have hm : ∀ r, r ∈ (table.filter fun r => decide (r.number < n)) ↔ r ∈ table ∧ r.number < n := by simp
  generalize (table.filter fun r => decide (r.number < n)) = l at hp hm
  have hl : ∀ x, l.getLast? = some x ↔ x ∈ l ∧ ∀ y ∈ l, y.number ≤ x.number := by
    intro x
    rcases List.eq_nil_or_concat l with rfl | ⟨l', a, rfl⟩
    · simp
    · have ha : ∀ y ∈ l', y.number < a.number := by
        intro y hy; exact (List.pairwise_append.mp (by simpa using hp)).2.2 y hy a (by simp)
      simp
      constructor
      · rintro rfl; exact ⟨.inr rfl, fun y hy => hy.elim (fun hy => Nat.le_of_lt (ha y hy)) (by rintro rfl; exact Nat.le_refl _)⟩
      · rintro ⟨h1 | h1, h2⟩
        · have := ha x h1; have := h2 a (.inr rfl); omega
        · exact h1.symm
  simp only [Option.map_eq_some_iff, hl, hm]
  constructor
  · rintro ⟨a, ⟨⟨h1, h2⟩, h3⟩, rfl⟩; exact ⟨h2, ⟨a, h1, rfl⟩, fun r hr hn => h3 r ⟨hr, hn⟩⟩
  · rintro ⟨h1, ⟨r, hr, rfl⟩, h3⟩; exact ⟨r, ⟨⟨hr, h1⟩, fun y hy => h3 y hy.1 hy.2⟩, rfl⟩

/-- A record enters an ordered table in its place, and the table grows unless its number was stored. -/
theorem insertCue_spec {table : List CueRecord} (h : table.Pairwise (fun a b => a.number < b.number)) (r : CueRecord) :
    (insertCue r table).Pairwise (fun a b => a.number < b.number)
      ∧ (insertCue r table).length = if isStored table r.number then table.length else table.length + 1 := by
  induction table with
  | nil => simp [insertCue, isStored, findCue]
  | cons c rest ih =>
    have hc := (List.pairwise_cons.mp h).1
    have hr := (List.pairwise_cons.mp h).2
    have ih := ih hr
    unfold insertCue
    split
    · rename_i hlt
      refine ⟨List.pairwise_cons.mpr ⟨?_, h⟩, ?_⟩
      · intro a ha; rcases List.mem_cons.mp ha with rfl | ha
        · exact hlt
        · have := hc a ha; omega
      · have : isStored (c :: rest) r.number = false := by
          simp [isStored, findCue]; refine ⟨by omega, fun x hx => ?_⟩; have := hc x hx; omega
        simp [this]
    split
    · rename_i heq
      refine ⟨List.pairwise_cons.mpr ⟨?_, hr⟩, ?_⟩
      · intro a ha; have := hc a ha; omega
      · have : isStored (c :: rest) r.number = true := by simp [isStored, findCue, heq]
        simp [this]
    · rename_i h1 h2
      refine ⟨List.pairwise_cons.mpr ⟨?_, ih.1⟩, ?_⟩
      · intro a ha
        rcases (mem_insertCue hr).mp ha with rfl | ⟨ha, _⟩
        · omega
        · exact hc a ha
      · have : isStored (c :: rest) r.number = isStored rest r.number := by
          simp [isStored, findCue, show c.number ≠ r.number by omega]
        simp only [List.length_cons, ih.2, this]; split <;> rfl

end Sys2Proof.Machine
end

