-- ==== Sys2Proof/Laws/State.lean ====
section
/-! SUPPORT. What each state update of the shared operations writes and leaves: one lemma per field. -/

namespace Sys2Proof.Machine

@[simp] theorem latch_pending (e : Event) (s : State) : (latch e s).pending = s.pending := rfl
@[simp] theorem latch_inReset (e : Event) (s : State) : (latch e s).inReset = s.inReset := rfl
@[simp] theorem latch_clock (e : Event) (s : State) : (latch e s).clock = s.clock := rfl
@[simp] theorem latch_link (e : Event) (s : State) : (latch e s).link = s.link := rfl
@[simp] theorem latch_cues (e : Event) (s : State) : (latch e s).cues = s.cues := rfl
@[simp] theorem latch_play (e : Event) (s : State) : (latch e s).play = s.play := rfl
@[simp] theorem latch_fade (e : Event) (s : State) : (latch e s).fade = s.fade := rfl
@[simp] theorem latch_own (e : Event) (s : State) : (latch e s).own = s.own := rfl
@[simp] theorem latch_surface (e : Event) (s : State) : (latch e s).surface = s.surface := rfl
@[simp] theorem latch_mute (e : Event) (s : State) : (latch e s).mute = s.mute := rfl
@[simp] theorem latch_out (e : Event) (s : State) : (latch e s).out = s.out := rfl
@[simp] theorem latch_sup (e : Event) (s : State) : (latch e s).sup = s.sup := rfl
@[simp] theorem latch_status (e : Event) (s : State) : (latch e s).status = s.status.record e := rfl
@[simp] theorem latch_choices (e : Event) (s : State) : (latch e s).choices = s.choices := rfl

@[simp] theorem portHunt_pending (s : State) : (portHunt s).pending = s.pending := rfl
@[simp] theorem portHunt_inReset (s : State) : (portHunt s).inReset = s.inReset := rfl
@[simp] theorem portHunt_clock (s : State) : (portHunt s).clock = s.clock := rfl
@[simp] theorem portHunt_link (s : State) : (portHunt s).link = { s.link with port := .hunt } := rfl
@[simp] theorem portHunt_cues (s : State) : (portHunt s).cues = s.cues := rfl
@[simp] theorem portHunt_play (s : State) : (portHunt s).play = s.play := rfl
@[simp] theorem portHunt_fade (s : State) : (portHunt s).fade = s.fade := rfl
@[simp] theorem portHunt_own (s : State) : (portHunt s).own = s.own := rfl
@[simp] theorem portHunt_surface (s : State) : (portHunt s).surface = s.surface := rfl
@[simp] theorem portHunt_mute (s : State) : (portHunt s).mute = s.mute := rfl
@[simp] theorem portHunt_out (s : State) : (portHunt s).out = s.out := rfl
@[simp] theorem portHunt_sup (s : State) : (portHunt s).sup = s.sup := rfl
@[simp] theorem portHunt_status (s : State) : (portHunt s).status = s.status := rfl
@[simp] theorem portHunt_choices (s : State) : (portHunt s).choices = s.choices := rfl

@[simp] theorem portReceive_pending (g : List Byte) (s : State) : (portReceive g s).pending = s.pending := rfl
@[simp] theorem portReceive_inReset (g : List Byte) (s : State) : (portReceive g s).inReset = s.inReset := rfl
@[simp] theorem portReceive_clock (g : List Byte) (s : State) : (portReceive g s).clock = s.clock := rfl
@[simp] theorem portReceive_link (g : List Byte) (s : State) :
    (portReceive g s).link = { s.link with port := .receive g } := rfl
@[simp] theorem portReceive_cues (g : List Byte) (s : State) : (portReceive g s).cues = s.cues := rfl
@[simp] theorem portReceive_play (g : List Byte) (s : State) : (portReceive g s).play = s.play := rfl
@[simp] theorem portReceive_fade (g : List Byte) (s : State) : (portReceive g s).fade = s.fade := rfl
@[simp] theorem portReceive_own (g : List Byte) (s : State) : (portReceive g s).own = s.own := rfl
@[simp] theorem portReceive_surface (g : List Byte) (s : State) : (portReceive g s).surface = s.surface := rfl
@[simp] theorem portReceive_mute (g : List Byte) (s : State) : (portReceive g s).mute = s.mute := rfl
@[simp] theorem portReceive_out (g : List Byte) (s : State) : (portReceive g s).out = s.out := rfl
@[simp] theorem portReceive_sup (g : List Byte) (s : State) : (portReceive g s).sup = s.sup := rfl
@[simp] theorem portReceive_status (g : List Byte) (s : State) : (portReceive g s).status = s.status := rfl
@[simp] theorem portReceive_choices (g : List Byte) (s : State) : (portReceive g s).choices = s.choices := rfl

@[simp] theorem advanceCollisions_pending (s : State) : (advanceCollisions s).pending = s.pending := rfl
@[simp] theorem advanceCollisions_inReset (s : State) : (advanceCollisions s).inReset = s.inReset := rfl
@[simp] theorem advanceCollisions_clock (s : State) : (advanceCollisions s).clock = s.clock := rfl
@[simp] theorem advanceCollisions_link (s : State) :
    (advanceCollisions s).link = { s.link with collisions := min Config.maxCollisions (s.link.collisions + 1) } := rfl
@[simp] theorem advanceCollisions_cues (s : State) : (advanceCollisions s).cues = s.cues := rfl
@[simp] theorem advanceCollisions_play (s : State) : (advanceCollisions s).play = s.play := rfl
@[simp] theorem advanceCollisions_fade (s : State) : (advanceCollisions s).fade = s.fade := rfl
@[simp] theorem advanceCollisions_own (s : State) : (advanceCollisions s).own = s.own := rfl
@[simp] theorem advanceCollisions_surface (s : State) : (advanceCollisions s).surface = s.surface := rfl
@[simp] theorem advanceCollisions_mute (s : State) : (advanceCollisions s).mute = s.mute := rfl
@[simp] theorem advanceCollisions_out (s : State) : (advanceCollisions s).out = s.out := rfl
@[simp] theorem advanceCollisions_sup (s : State) : (advanceCollisions s).sup = s.sup := rfl
@[simp] theorem advanceCollisions_status (s : State) : (advanceCollisions s).status = s.status := rfl
@[simp] theorem advanceCollisions_choices (s : State) : (advanceCollisions s).choices = s.choices := rfl

@[simp] theorem dropSurfaceFrame_pending (s : State) : (dropSurfaceFrame s).pending = s.pending := rfl
@[simp] theorem dropSurfaceFrame_inReset (s : State) : (dropSurfaceFrame s).inReset = s.inReset := rfl
@[simp] theorem dropSurfaceFrame_clock (s : State) : (dropSurfaceFrame s).clock = s.clock := rfl
@[simp] theorem dropSurfaceFrame_link (s : State) : (dropSurfaceFrame s).link = s.link := rfl
@[simp] theorem dropSurfaceFrame_cues (s : State) : (dropSurfaceFrame s).cues = s.cues := rfl
@[simp] theorem dropSurfaceFrame_play (s : State) : (dropSurfaceFrame s).play = s.play := rfl
@[simp] theorem dropSurfaceFrame_fade (s : State) : (dropSurfaceFrame s).fade = s.fade := rfl
@[simp] theorem dropSurfaceFrame_own (s : State) : (dropSurfaceFrame s).own = s.own := rfl
@[simp] theorem dropSurfaceFrame_surface (s : State) :
    (dropSurfaceFrame s).surface = { s.surface with rx := .hunt } := rfl
@[simp] theorem dropSurfaceFrame_mute (s : State) : (dropSurfaceFrame s).mute = s.mute := rfl
@[simp] theorem dropSurfaceFrame_out (s : State) : (dropSurfaceFrame s).out = s.out := rfl
@[simp] theorem dropSurfaceFrame_sup (s : State) : (dropSurfaceFrame s).sup = s.sup := rfl
@[simp] theorem dropSurfaceFrame_status (s : State) : (dropSurfaceFrame s).status = s.status := rfl
@[simp] theorem dropSurfaceFrame_choices (s : State) : (dropSurfaceFrame s).choices = s.choices := rfl

@[simp] theorem settle_pending (s : State) : (settle s).pending = s.pending := rfl
@[simp] theorem settle_inReset (s : State) : (settle s).inReset = s.inReset := rfl
@[simp] theorem settle_clock (s : State) : (settle s).clock = s.clock := rfl
@[simp] theorem settle_link (s : State) : (settle s).link = s.link := rfl
@[simp] theorem settle_cues (s : State) : (settle s).cues = s.cues := rfl
@[simp] theorem settle_play (s : State) :
    (settle s).play = { s.play with state := followTable s.fade.entries s.play.state } := rfl
@[simp] theorem settle_fade (s : State) : (settle s).fade = s.fade := rfl
@[simp] theorem settle_own (s : State) : (settle s).own = s.own := rfl
@[simp] theorem settle_surface (s : State) : (settle s).surface = s.surface := rfl
@[simp] theorem settle_mute (s : State) : (settle s).mute = s.mute := rfl
@[simp] theorem settle_out (s : State) : (settle s).out = s.out := rfl
@[simp] theorem settle_sup (s : State) : (settle s).sup = s.sup := rfl
@[simp] theorem settle_status (s : State) : (settle s).status = s.status := rfl
@[simp] theorem settle_choices (s : State) : (settle s).choices = s.choices := rfl

@[simp] theorem recomputeStandby_pending (s : State) : (recomputeStandby s).pending = s.pending := rfl
@[simp] theorem recomputeStandby_inReset (s : State) : (recomputeStandby s).inReset = s.inReset := rfl
@[simp] theorem recomputeStandby_clock (s : State) : (recomputeStandby s).clock = s.clock := rfl
@[simp] theorem recomputeStandby_link (s : State) : (recomputeStandby s).link = s.link := rfl
@[simp] theorem recomputeStandby_cues (s : State) : (recomputeStandby s).cues = s.cues := rfl
@[simp] theorem recomputeStandby_play (s : State) :
    (recomputeStandby s).play = { s.play with standby :=
      (nextAfter s.cues.table s.play.current).map fun n => { number := n, explicit := false } } := rfl
@[simp] theorem recomputeStandby_fade (s : State) : (recomputeStandby s).fade = s.fade := rfl
@[simp] theorem recomputeStandby_own (s : State) : (recomputeStandby s).own = s.own := rfl
@[simp] theorem recomputeStandby_surface (s : State) : (recomputeStandby s).surface = s.surface := rfl
@[simp] theorem recomputeStandby_mute (s : State) : (recomputeStandby s).mute = s.mute := rfl
@[simp] theorem recomputeStandby_out (s : State) : (recomputeStandby s).out = s.out := rfl
@[simp] theorem recomputeStandby_sup (s : State) : (recomputeStandby s).sup = s.sup := rfl
@[simp] theorem recomputeStandby_status (s : State) : (recomputeStandby s).status = s.status := rfl
@[simp] theorem recomputeStandby_choices (s : State) : (recomputeStandby s).choices = s.choices := rfl

@[simp] theorem startResolution_pending (g t : Nat) (h : Bool) (s : State) :
    (startResolution g t h s).pending = s.pending := rfl
@[simp] theorem startResolution_inReset (g t : Nat) (h : Bool) (s : State) :
    (startResolution g t h s).inReset = s.inReset := rfl
@[simp] theorem startResolution_clock (g t : Nat) (h : Bool) (s : State) :
    (startResolution g t h s).clock = s.clock := rfl
@[simp] theorem startResolution_link (g t : Nat) (h : Bool) (s : State) :
    (startResolution g t h s).link = s.link := rfl
@[simp] theorem startResolution_cues (g t : Nat) (h : Bool) (s : State) :
    (startResolution g t h s).cues = s.cues := rfl
@[simp] theorem startResolution_play (g t : Nat) (h : Bool) (s : State) :
    (startResolution g t h s).play = { s.play with follow := none, state := .resolving ⟨g, t, s.clock, h⟩ } := rfl
@[simp] theorem startResolution_fade (g t : Nat) (h : Bool) (s : State) :
    (startResolution g t h s).fade = s.fade := rfl
@[simp] theorem startResolution_own (g t : Nat) (h : Bool) (s : State) : (startResolution g t h s).own = s.own := rfl
@[simp] theorem startResolution_surface (g t : Nat) (h : Bool) (s : State) :
    (startResolution g t h s).surface = s.surface := rfl
@[simp] theorem startResolution_mute (g t : Nat) (h : Bool) (s : State) :
    (startResolution g t h s).mute = s.mute := rfl
@[simp] theorem startResolution_out (g t : Nat) (h : Bool) (s : State) : (startResolution g t h s).out = s.out := rfl
@[simp] theorem startResolution_sup (g t : Nat) (h : Bool) (s : State) : (startResolution g t h s).sup = s.sup := rfl
@[simp] theorem startResolution_status (g t : Nat) (h : Bool) (s : State) :
    (startResolution g t h s).status = s.status := rfl
@[simp] theorem startResolution_choices (g t : Nat) (h : Bool) (s : State) :
    (startResolution g t h s).choices = s.choices := rfl

@[simp] theorem setLocal_pending (m : Bool) (s : State) : (setLocal m s).pending = s.pending := rfl
@[simp] theorem setLocal_inReset (m : Bool) (s : State) : (setLocal m s).inReset = s.inReset := rfl
@[simp] theorem setLocal_clock (m : Bool) (s : State) : (setLocal m s).clock = s.clock := rfl
@[simp] theorem setLocal_link (m : Bool) (s : State) : (setLocal m s).link = s.link := rfl
@[simp] theorem setLocal_cues (m : Bool) (s : State) : (setLocal m s).cues = s.cues := rfl
@[simp] theorem setLocal_play (m : Bool) (s : State) : (setLocal m s).play = s.play := rfl
@[simp] theorem setLocal_fade (m : Bool) (s : State) : (setLocal m s).fade = s.fade := rfl
@[simp] theorem setLocal_own (m : Bool) (s : State) : (setLocal m s).own = s.own := rfl
@[simp] theorem setLocal_surface (m : Bool) (s : State) : (setLocal m s).surface = s.surface := rfl
@[simp] theorem setLocal_mute (m : Bool) (s : State) : (setLocal m s).mute = s.mute := rfl
@[simp] theorem setLocal_out (m : Bool) (s : State) : (setLocal m s).out = s.out := rfl
@[simp] theorem setLocal_sup (m : Bool) (s : State) : (setLocal m s).sup = { s.sup with localMode := m } := rfl
@[simp] theorem setLocal_status (m : Bool) (s : State) : (setLocal m s).status = s.status := rfl
@[simp] theorem setLocal_choices (m : Bool) (s : State) : (setLocal m s).choices = s.choices := rfl

@[simp] theorem setEdit_pending (d : Option CueRecord) (s : State) : (setEdit d s).pending = s.pending := rfl
@[simp] theorem setEdit_inReset (d : Option CueRecord) (s : State) : (setEdit d s).inReset = s.inReset := rfl
@[simp] theorem setEdit_clock (d : Option CueRecord) (s : State) : (setEdit d s).clock = s.clock := rfl
@[simp] theorem setEdit_link (d : Option CueRecord) (s : State) : (setEdit d s).link = s.link := rfl
@[simp] theorem setEdit_cues (d : Option CueRecord) (s : State) :
    (setEdit d s).cues = { s.cues with edit := d } := rfl
@[simp] theorem setEdit_play (d : Option CueRecord) (s : State) : (setEdit d s).play = s.play := rfl
@[simp] theorem setEdit_fade (d : Option CueRecord) (s : State) : (setEdit d s).fade = s.fade := rfl
@[simp] theorem setEdit_own (d : Option CueRecord) (s : State) : (setEdit d s).own = s.own := rfl
@[simp] theorem setEdit_surface (d : Option CueRecord) (s : State) : (setEdit d s).surface = s.surface := rfl
@[simp] theorem setEdit_mute (d : Option CueRecord) (s : State) : (setEdit d s).mute = s.mute := rfl
@[simp] theorem setEdit_out (d : Option CueRecord) (s : State) : (setEdit d s).out = s.out := rfl
@[simp] theorem setEdit_sup (d : Option CueRecord) (s : State) : (setEdit d s).sup = s.sup := rfl
@[simp] theorem setEdit_status (d : Option CueRecord) (s : State) : (setEdit d s).status = s.status := rfl
@[simp] theorem setEdit_choices (d : Option CueRecord) (s : State) : (setEdit d s).choices = s.choices := rfl

@[simp] theorem pendAnswer_pending (k t r : Byte) (d : List Byte) (s : State) :
    (pendAnswer k t r d s).pending = s.pending := rfl
@[simp] theorem pendAnswer_inReset (k t r : Byte) (d : List Byte) (s : State) :
    (pendAnswer k t r d s).inReset = s.inReset := rfl
@[simp] theorem pendAnswer_clock (k t r : Byte) (d : List Byte) (s : State) :
    (pendAnswer k t r d s).clock = s.clock := rfl
@[simp] theorem pendAnswer_link (k t r : Byte) (d : List Byte) (s : State) :
    (pendAnswer k t r d s).link =
    { s.link with port := .answerPending ⟨0x80#8 ||| s.link.address.setWidth 8, k, t, r :: d⟩ } := rfl
@[simp] theorem pendAnswer_cues (k t r : Byte) (d : List Byte) (s : State) :
    (pendAnswer k t r d s).cues = s.cues := rfl
@[simp] theorem pendAnswer_play (k t r : Byte) (d : List Byte) (s : State) :
    (pendAnswer k t r d s).play = s.play := rfl
@[simp] theorem pendAnswer_fade (k t r : Byte) (d : List Byte) (s : State) :
    (pendAnswer k t r d s).fade = s.fade := rfl
@[simp] theorem pendAnswer_own (k t r : Byte) (d : List Byte) (s : State) : (pendAnswer k t r d s).own = s.own := rfl
@[simp] theorem pendAnswer_surface (k t r : Byte) (d : List Byte) (s : State) :
    (pendAnswer k t r d s).surface = s.surface := rfl
@[simp] theorem pendAnswer_mute (k t r : Byte) (d : List Byte) (s : State) :
    (pendAnswer k t r d s).mute = s.mute := rfl
@[simp] theorem pendAnswer_out (k t r : Byte) (d : List Byte) (s : State) : (pendAnswer k t r d s).out = s.out := rfl
@[simp] theorem pendAnswer_sup (k t r : Byte) (d : List Byte) (s : State) : (pendAnswer k t r d s).sup = s.sup := rfl
@[simp] theorem pendAnswer_status (k t r : Byte) (d : List Byte) (s : State) :
    (pendAnswer k t r d s).status = s.status := rfl
@[simp] theorem pendAnswer_choices (k t r : Byte) (d : List Byte) (s : State) :
    (pendAnswer k t r d s).choices = s.choices := rfl

end Sys2Proof.Machine
end

