-- ==== Sys2Proof/Laws/Orders.lean ====
section
/-! SUPPORT. What a command can do, said once: every command answers a next state; an order is the completed frame of
its kind; the outcomes of the shared operations on frames. -/

namespace Sys2Proof.Machine

/-- Every command answers a next state. -/
theorem exec_next (i : Instr) (s : State) : ∃ t, exec i s = .next t := by
  cases i <;> exact ⟨_, rfl⟩

/-- An order is a completed frame of its kind. -/
theorem exec_order {i : Instr} {kind : Byte} {f : OrderFrame} (h : i.order? = some (kind, f)) (s : State) :
    exec i s = event (arrive (completedFrame kind f)) s := by
  cases i <;> simp only [Instr.order?, Option.some.injEq, Prod.mk.injEq, reduceCtorEq] at h <;>
    (obtain ⟨rfl, rfl⟩ := h; rfl)

/-- The step of a waiting command. -/
theorem step_cons {s : State} {c : Instr} {rest : List Instr} (h : s.pending = c :: rest) :
    step s = exec c { s with pending := rest } := by
  unfold step; rw [h]

/-- The step with no command waiting. -/
theorem step_nil {s : State} (h : s.pending = []) : step s = .next (idle s) := by
  unfold step; rw [h]

/-- `noteChanges` adds STATE_CHANGED or nothing. -/
theorem noteChanges_cases (before after : State) :
    noteChanges before after = after ∨ noteChanges before after = latch .stateChanged after := by
  unfold noteChanges; split <;> simp

/-- Nothing is noted where the present-state set stays. -/
theorem noteChanges_same {before after : State} (h : present before = present after) :
    noteChanges before after = after := by
  unfold noteChanges; rw [if_pos h]

/-- Outside a full reset an event acts and its change of the present-state set is noted. -/
theorem event_run {s : State} (h : s.inReset = false) (act : State → State) :
    event act s = .next (noteChanges s (act s)) := by
  unfold event; rw [h]; rfl

/-- A full reset takes no event. -/
theorem event_inReset {s : State} (h : s.inReset = true) (act : State → State) : event act s = .next s := by
  unfold event; rw [h]; rfl

/-- A frame in HUNT is taken. -/
theorem arrive_hunt {s : State} (h : s.link.port = .hunt) (take : State → State) : arrive take s = take s := by
  unfold arrive; rw [h]

/-- A taken order's checks passed: it is carried out and DONE is pending. -/
theorem takeExact_done {kind : Byte} {o : OrderSpec} {f : OrderFrame} {s t : State} {data : List Byte}
    (h : judgeOrder o f.payload s = .done data t) :
    takeExact kind o f s = pendAnswer kind f.tag doneCode data t := by
  unfold takeExact; rw [h]

/-- A refused order leaves the blocks alone. -/
theorem takeExact_refuse {kind : Byte} {o : OrderSpec} {f : OrderFrame} {s : State} {r : Reason} {data : List Byte}
    (h : judgeOrder o f.payload s = .refuse r data) :
    takeExact kind o f s = pendAnswer kind f.tag r.code data (latchRefusal r s) := by
  unfold takeExact; rw [h]

/-- The checks of an order of the right length outside LOCAL mode are its own. -/
theorem judgeOrder_body {o : OrderSpec} {p : List Byte} {s : State} (hl : o.lengthOk p.length = true)
    (hm : s.sup.localMode = false) : judgeOrder o p s = o.body p s := by
  unfold judgeOrder; simp [hl, hm]

/-- The checks of an order of the right length that LOCAL mode accepts are its own. -/
theorem judgeOrder_open {o : OrderSpec} {p : List Byte} {s : State} (hl : o.lengthOk p.length = true)
    (hr : o.refusedLocal = false) : judgeOrder o p s = o.body p s := by
  unfold judgeOrder; simp [hl, hr]

/-- An exactly matched frame that fits is taken exactly. -/
theorem takeFrame_exact {kind : Byte} {o : OrderSpec} {f : OrderFrame} {s : State}
    (hf : f.payload.length ≤ maxPayload f.address) (hm : matchAddress s.link.address s.link.mask f.address = .exact) :
    takeFrame kind o f s = takeExact kind o f (portHunt s) := by
  unfold takeFrame; rw [if_neg (Nat.not_lt.mpr hf), hm]

/-- A frame on a masked match that fits is taken silently. -/
theorem takeFrame_masked {kind : Byte} {o : OrderSpec} {f : OrderFrame} {s : State}
    (hf : f.payload.length ≤ maxPayload f.address) (hm : matchAddress s.link.address s.link.mask f.address = .masked) :
    takeFrame kind o f s = takeMasked o f (portHunt s) := by
  unfold takeFrame; rw [if_neg (Nat.not_lt.mpr hf), hm]

/-- A frame that matches no address leaves the receiver in HUNT and nothing else. -/
theorem takeFrame_none {kind : Byte} {o : OrderSpec} {f : OrderFrame} {s : State}
    (hf : f.payload.length ≤ maxPayload f.address) (hm : matchAddress s.link.address s.link.mask f.address = .none) :
    takeFrame kind o f s = portHunt s := by
  unfold takeFrame; rw [if_neg (Nat.not_lt.mpr hf), hm]

/-- A port that stands in HUNT stays as it is. -/
theorem portHunt_of_hunt {s : State} (h : s.link.port = .hunt) : portHunt s = s := by
  obtain ⟨_, _, _, ⟨_, _, _, _⟩, _, _, _, _, _, _, _, _, _, _⟩ := s
  simp only [portHunt] at h ⊢
  subst h; rfl

end Sys2Proof.Machine
end

