-- ==== Sys2Proof/Laws/Keeps.lean ====
section
/-! SUPPORT. What a step can do, said once: a property kept by each block's own changes is kept by every step. -/

namespace Sys2Proof.Machine

/-- A property kept by every change that a command outside the resets is made of. -/
structure Keeps (Inv : State → Prop) : Prop where
  port : ∀ s p, Inv s → Inv { s with link := { s.link with port := p } }
  collided : ∀ s, Inv s → Inv (advanceCollisions s)
  latched : ∀ e s, Inv s → Inv (latch e s)
  taken : ∀ kind o p s data t, orderSpec kind = some o → Inv s → o.body p s = .done data t → Inv t
  receiver : ∀ s r, Inv s → Inv { s with surface := { s.surface with rx := r } }
  report : ∀ scan words s, Inv s → Inv (actSurfaceReport scan words s)
  goLinePress : ∀ s, Inv s → Inv (actGoLinePress s)
  goLineRise : ∀ s, Inv s → Inv (actGoLineRise s)
  followExpiry : ∀ s, Inv s → Inv (actFollowExpiry s)
  lockoutExpiry : ∀ s, Inv s → Inv (actLockoutExpiry s)
  delayExpiry : ∀ t s, Inv s → Inv (actDelayExpiry t s)
  fadeCompletion : ∀ t s, Inv s → Inv (actFadeCompletion t s)
  resolutionCompletion : ∀ s, Inv s → Inv (actResolutionCompletion s)
  motorFrameSend : ∀ s, Inv s → Inv (actMotorFrameSend s)
  surfaceLoss : ∀ s, Inv s → Inv (actSurfaceLoss s)
  stuckTouchExpiry : ∀ i s, Inv s → Inv (actStuckTouchExpiry i s)
  glideExpiry : ∀ t s, Inv s → Inv (actGlideExpiry t s)
  rampArrival : ∀ c s, Inv s → Inv (actRampArrival c s)
  stopLine : ∀ level s, Inv s → Inv (setStopLine level s)
  outputPeriodExpiry : ∀ s, Inv s → Inv (actOutputPeriodExpiry s)
  windowExpiry : ∀ s, Inv s → Inv (actWindowExpiry s)
  attnPulse : ∀ s, Inv s → Inv (actAttnPulse s)

/-- A property kept by every step: by the commands, the resets, the queue and the passing of time. -/
structure KeepsSteps (Inv : State → Prop) : Prop extends Keeps Inv where
  queued : ∀ s q, Inv s → Inv { s with pending := q }
  chosen : ∀ s n, Inv s → Inv { s with choices := n }
  millisecond : ∀ s, forcedEvents s = [] → Inv s → Inv (advance s)
  held : ∀ s, Inv s → Inv (heldInReset s)
  released : ∀ pins goLine s, Inv s → Inv (releasedFromReset pins goLine s)

namespace Keeps

variable {Inv : State → Prop} (k : Keeps Inv)
include k

theorem noted {before after : State} (h : Inv after) : Inv (noteChanges before after) := by
  rcases noteChanges_cases before after with e | e <;> rw [e]
  · exact h
  · exact k.latched _ _ h

theorem hunted {s : State} (h : Inv s) : Inv (portHunt s) := k.port s _ h

theorem dropped {s : State} (h : Inv s) : Inv (dropFrame s) := k.latched _ _ (k.hunted h)

theorem lost {s : State} (h : Inv s) : Inv (loseAnswer s) := k.latched _ _ (k.collided _ (k.hunted h))

theorem refused {r : Reason} {s : State} (h : Inv s) : Inv (latchRefusal r s) := by
  unfold latchRefusal; split
  · exact k.latched _ _ h
  · exact h

theorem judged {kind : Byte} {o : OrderSpec} (ho : orderSpec kind = some o) {p : List Byte} {s t : State}
    {data : List Byte} (h : Inv s) (hj : judgeOrder o p s = .done data t) : Inv t := by
  unfold judgeOrder at hj
  split at hj
  · cases hj
  split at hj
  · cases hj
  · exact k.taken kind o p s data t ho h hj

theorem exact {kind : Byte} {o : OrderSpec} (ho : orderSpec kind = some o ∨ o = unknownSpec) {f : OrderFrame}
    {s : State} (h : Inv s) : Inv (takeExact kind o f s) := by
  unfold takeExact
  cases hj : judgeOrder o f.payload s with
  | refuse r data => exact k.port _ _ (k.refused h)
  | done data t =>
    rcases ho with ho | rfl
    · exact k.port _ _ (k.judged ho h hj)
    · simp [judgeOrder, unknownSpec] at hj

theorem masked {kind : Byte} {o : OrderSpec} (ho : orderSpec kind = some o ∨ o = unknownSpec) {f : OrderFrame}
    {s : State} (h : Inv s) : Inv (takeMasked o f s) := by
  unfold takeMasked
  split
  · exact h
  cases hj : judgeOrder o f.payload s with
  | refuse r data => exact k.latched _ _ (k.refused h)
  | done data t =>
    rcases ho with ho | rfl
    · exact k.judged ho h hj
    · simp [judgeOrder, unknownSpec] at hj

theorem completed {kind : Byte} {f : OrderFrame} {s : State} (h : Inv s) : Inv (completedFrame kind f s) := by
  have ho : orderSpec kind = some ((orderSpec kind).getD unknownSpec) ∨
      (orderSpec kind).getD unknownSpec = unknownSpec := by
    cases orderSpec kind <;> simp
  unfold completedFrame takeFrame
  split
  · exact k.dropped h
  split
  · exact k.hunted h
  · exact k.exact ho (k.hunted h)
  · exact k.masked ho (k.hunted h)

theorem arrived {take : State → State} (ht : ∀ s, Inv s → Inv (take s)) {s : State} (h : Inv s) :
    Inv (arrive take s) := by
  unfold arrive; split
  · exact h
  · exact ht _ (k.lost h)
  · exact ht _ h
  · exact ht _ h

theorem checked {kind : Byte} {f : OrderFrame} {check : Word16} {s : State} (h : Inv s) :
    Inv (checkedFrame kind f check s) := by
  unfold checkedFrame; split
  · exact k.completed h
  · exact k.dropped h

theorem hunting {b : Byte} {fault : Bool} {s : State} (h : Inv s) : Inv (huntByte b fault s) := by
  unfold huntByte; split
  · exact k.port _ _ h
  · exact h

theorem gathered {bytes : List Byte} {s : State} (h : Inv s) : Inv (gather bytes s) := by
  unfold gather
  split
  · exact k.port _ _ h
  split
  · exact k.dropped h
  split
  · exact k.port _ _ h
  unfold judgeFrame; split
  · exact k.noted (k.completed h)
  · exact k.dropped h

theorem byte {fault : Bool} {s : State} {b : Byte} (h : Inv s) : Inv (linkByte fault s b) := by
  unfold linkByte; split
  · exact k.hunting h
  · split
    · exact k.dropped h
    · exact k.gathered h
  · exact k.hunting (k.lost h)
  · exact h

theorem bytes {received : List Byte} {s : State} (h : Inv s) : Inv (linkBytes received s) := by
  unfold linkBytes
  induction received generalizing s with
  | nil => exact h
  | cons b rest ih => exact ih (k.byte h)

theorem surfaceDropped {s : State} (h : Inv s) : Inv (dropSurfaceFrame s) := k.receiver s _ h

theorem surfaceChecked {scan : Byte} {words : Vector Word16 16} {check : Word16} {s : State} (h : Inv s) :
    Inv (actSurfaceCheck scan words check s) := by
  unfold actSurfaceCheck; split
  · exact k.report _ _ _ h
  · exact k.surfaceDropped h

theorem surfaceByte {s : State} {b : Byte} (h : Inv s) : Inv (surfaceByte s b) := by
  unfold Machine.surfaceByte; split
  · split
    · exact k.receiver _ _ h
    · exact h
  · split
    · exact k.noted (k.surfaceChecked h)
    · exact k.receiver _ _ h

theorem surfaceBytes {received : List Byte} {s : State} (h : Inv s) : Inv (actSurfaceAbandon received s) := by
  unfold actSurfaceAbandon
  refine k.surfaceDropped ?_
  induction received generalizing s with
  | nil => exact h
  | cons b rest ih => exact ih (k.surfaceByte h)

theorem event {act : State → State} (ha : ∀ s, Inv s → Inv (act s)) {s t : State} (h : Inv s)
    (he : Machine.event act s = .next t) : Inv t := by
  simp only [Machine.event, Host.Outcome.next.injEq] at he
  subst he
  split
  · exact h
  · exact k.noted (ha _ h)

omit k in
theorem received {act : State → State} (ha : ∀ s, Inv s → Inv (act s)) {s t : State} (h : Inv s)
    (he : Machine.received act s = .next t) : Inv t := by
  simp only [Machine.received, Host.Outcome.next.injEq] at he
  subst he
  split
  · exact h
  · exact ha _ h

theorem answerSend {s : State} (h : Inv s) : Inv (actAnswerSend s) := by
  unfold actAnswerSend; split
  · exact k.port _ _ h
  all_goals exact h

theorem answerSent {s : State} (h : Inv s) : Inv (actAnswerSent s) := by
  unfold actAnswerSent; split
  · exact k.hunted h
  all_goals exact h

theorem pendingCollision {b : Byte} {fault : Bool} {s : State} (h : Inv s) :
    Inv (actAnswerPendingCollision b fault s) := by
  unfold actAnswerPendingCollision; split
  · exact k.byte h
  all_goals exact h

theorem readback {index : Nat} {b : Byte} {fault : Bool} {s : State} (h : Inv s) :
    Inv (actReadbackCollision index b fault s) := by
  unfold actReadbackCollision
  split
  · split
    · split
      · exact h
      · exact k.lost h
    · exact h
  all_goals exact h

theorem gap {s : State} (h : Inv s) : Inv (linkGap s) := by
  unfold linkGap; split
  · exact k.dropped h
  all_goals exact h

/-- A kept property holds after every command but the two of a full reset. -/
theorem exec {i : Instr} {s t : State} (h1 : i ≠ .fullReset) (h2 : ∀ p g l, i ≠ .fullResetEnd p g l) (h : Inv s)
    (he : Machine.exec i s = .next t) : Inv t := by
  cases ho : i.order? with
  | some o =>
    rw [exec_order ho] at he
    exact k.event (fun _ => k.arrived fun _ => k.completed) h he
  | none =>
    cases i <;> simp only [Instr.order?, reduceCtorEq] at ho
    case unknownOrder => exact k.event (fun _ => k.arrived fun _ => k.completed) h he
    case ignoredFrame => exact k.event (fun _ => k.arrived fun _ => k.completed) h he
    case frameCheckFail => exact k.event (fun _ => k.arrived fun _ => k.checked) h he
    case frameAbandon => exact Keeps.received (fun _ h => k.byte (k.bytes h)) h he
    case frameGapExpiry => exact Keeps.received (fun _ h => k.gap (k.bytes h)) h he
    case answerSend => exact k.event (fun _ => k.answerSend) h he
    case answerSent => exact k.event (fun _ => k.answerSent) h he
    case answerPendingCollision => exact k.event (fun _ => k.pendingCollision) h he
    case readbackCollision => exact k.event (fun _ => k.readback) h he
    case surfaceReport => exact k.event (k.report _ _) h he
    case surfaceFrameDropped => exact k.event (fun _ => k.surfaceChecked) h he
    case surfaceGapExpiry => exact k.event (fun _ => k.surfaceBytes) h he
    case motorFrameSend => exact k.event k.motorFrameSend h he
    case surfaceLoss => exact k.event k.surfaceLoss h he
    case stuckTouchExpiry => exact k.event (k.stuckTouchExpiry _) h he
    case glideExpiry => exact k.event (k.glideExpiry _) h he
    case goLinePress => exact k.event k.goLinePress h he
    case followExpiry => exact k.event k.followExpiry h he
    case lockoutExpiry => exact k.event k.lockoutExpiry h he
    case delayExpiry => exact k.event (k.delayExpiry _) h he
    case fadeCompletion => exact k.event (k.fadeCompletion _) h he
    case resolutionCompletion => exact k.event k.resolutionCompletion h he
    case rampArrival => exact k.event (k.rampArrival _) h he
    case stopLineFall => exact k.event (k.stopLine _) h he
    case stopLineRise => exact k.event (k.stopLine _) h he
    case outputPeriodExpiry => exact k.event k.outputPeriodExpiry h he
    case windowExpiry => exact k.event k.windowExpiry h he
    case attnPulse => exact k.event k.attnPulse h he
    case fullReset => exact absurd rfl h1
    case fullResetEnd => exact absurd rfl (h2 _ _ _)
    case surfaceFramingFault => exact k.event (fun _ => k.surfaceBytes) h he
    case goLineRise => exact k.event k.goLineRise h he

end Keeps

namespace KeepsSteps

variable {Inv : State → Prop} (k : KeepsSteps Inv)
include k

/-- A kept property holds after every command. -/
theorem exec {i : Instr} {s t : State} (h : Inv s) (he : Machine.exec i s = .next t) : Inv t := by
  by_cases h1 : i = .fullReset
  · subst h1; cases he; exact k.held _ h
  by_cases h2 : ∃ p g l, i = .fullResetEnd p g l
  · obtain ⟨p, g, l, rfl⟩ := h2
    simp only [Machine.exec, execFullResetEnd, Host.Outcome.next.injEq] at he
    subst he
    unfold actFullResetEnd
    split
    · exact k.noted (k.stopLine _ _ (k.released _ _ _ h))
    · exact h
  · exact k.toKeeps.exec h1 (fun p g l e => h2 ⟨p, g, l, e⟩) h he

/-- A kept property holds after the idle step. -/
theorem idle {s : State} (h : Inv s) : Inv (Machine.idle s) := by
  unfold Machine.idle
  split
  · exact h
  split
  · rename_i hev
    exact k.chosen _ _ (k.millisecond _ (List.append_eq_nil_iff.mp hev).1 h)
  · rename_i event rest _
    exact k.chosen _ (s.choices + 1) (k.queued s [firstTaken s.choices event rest] h)

/-- A kept property holds after every step. -/
theorem step {s t : State} (h : Inv s) (hs : Machine.step s = .next t) : Inv t := by
  unfold Machine.step at hs
  split at hs
  · cases hs; exact k.idle h
  · exact k.exec (k.queued _ _ h) hs

end KeepsSteps

end Sys2Proof.Machine
end

