-- ==== Sys2Proof/Laws/PerInstr.lean ====
section
/-! SUPPORT. For every command: its kind code and frame name it again (section 9.7), and an order's frame is the only
thing its well-formedness looks at. -/

namespace Sys2Proof.Laws.Frame

/-- The order that the command's kind code names for its frame is the command, and its well-formedness is its
frame's. -/
def Statement (i : Instr) : Prop :=
  ∀ o, i.order? = some o → orderOfKind o.1 o.2 = some i ∧ i.wf = o.2.orderWf

theorem go (f : OrderFrame) : Statement (.go f) := by intro o h; cases h; exact ⟨rfl, rfl⟩
theorem hold (f : OrderFrame) : Statement (.hold f) := by intro o h; cases h; exact ⟨rfl, rfl⟩
theorem resume (f : OrderFrame) : Statement (.resume f) := by intro o h; cases h; exact ⟨rfl, rfl⟩
theorem goto (f : OrderFrame) : Statement (.goto f) := by intro o h; cases h; exact ⟨rfl, rfl⟩
theorem back (f : OrderFrame) : Statement (.back f) := by intro o h; cases h; exact ⟨rfl, rfl⟩
theorem standbySet (f : OrderFrame) : Statement (.standbySet f) := by intro o h; cases h; exact ⟨rfl, rfl⟩
theorem stopSet (f : OrderFrame) : Statement (.stopSet f) := by intro o h; cases h; exact ⟨rfl, rfl⟩
theorem stopRelease (f : OrderFrame) : Statement (.stopRelease f) := by intro o h; cases h; exact ⟨rfl, rfl⟩
theorem showReset (f : OrderFrame) : Statement (.showReset f) := by intro o h; cases h; exact ⟨rfl, rfl⟩
theorem recordBegin (f : OrderFrame) : Statement (.recordBegin f) := by intro o h; cases h; exact ⟨rfl, rfl⟩
theorem moveAdd (f : OrderFrame) : Statement (.moveAdd f) := by intro o h; cases h; exact ⟨rfl, rfl⟩
theorem muteActionAdd (f : OrderFrame) : Statement (.muteActionAdd f) := by intro o h; cases h; exact ⟨rfl, rfl⟩
theorem recordEnd (f : OrderFrame) : Statement (.recordEnd f) := by intro o h; cases h; exact ⟨rfl, rfl⟩
theorem recordAbandon (f : OrderFrame) : Statement (.recordAbandon f) := by intro o h; cases h; exact ⟨rfl, rfl⟩
theorem recordLive (f : OrderFrame) : Statement (.recordLive f) := by intro o h; cases h; exact ⟨rfl, rfl⟩
theorem cueDelete (f : OrderFrame) : Statement (.cueDelete f) := by intro o h; cases h; exact ⟨rfl, rfl⟩
theorem cueRead (f : OrderFrame) : Statement (.cueRead f) := by intro o h; cases h; exact ⟨rfl, rfl⟩
theorem moveRead (f : OrderFrame) : Statement (.moveRead f) := by intro o h; cases h; exact ⟨rfl, rfl⟩
theorem tableInfo (f : OrderFrame) : Statement (.tableInfo f) := by intro o h; cases h; exact ⟨rfl, rfl⟩
theorem baseSet (f : OrderFrame) : Statement (.baseSet f) := by intro o h; cases h; exact ⟨rfl, rfl⟩
theorem park (f : OrderFrame) : Statement (.park f) := by intro o h; cases h; exact ⟨rfl, rfl⟩
theorem unpark (f : OrderFrame) : Statement (.unpark f) := by intro o h; cases h; exact ⟨rfl, rfl⟩
theorem targetRead (f : OrderFrame) : Statement (.targetRead f) := by intro o h; cases h; exact ⟨rfl, rfl⟩
theorem groupAssign (f : OrderFrame) : Statement (.groupAssign f) := by intro o h; cases h; exact ⟨rfl, rfl⟩
theorem muteSet (f : OrderFrame) : Statement (.muteSet f) := by intro o h; cases h; exact ⟨rfl, rfl⟩
theorem muteGroupAssign (f : OrderFrame) : Statement (.muteGroupAssign f) := by intro o h; cases h; exact ⟨rfl, rfl⟩
theorem exemptSet (f : OrderFrame) : Statement (.exemptSet f) := by intro o h; cases h; exact ⟨rfl, rfl⟩
theorem muteConfig (f : OrderFrame) : Statement (.muteConfig f) := by intro o h; cases h; exact ⟨rfl, rfl⟩
theorem bankAssign (f : OrderFrame) : Statement (.bankAssign f) := by intro o h; cases h; exact ⟨rfl, rfl⟩
theorem pageSelect (f : OrderFrame) : Statement (.pageSelect f) := by intro o h; cases h; exact ⟨rfl, rfl⟩
theorem surfaceConfig (f : OrderFrame) : Statement (.surfaceConfig f) := by intro o h; cases h; exact ⟨rfl, rfl⟩
theorem windowSet (f : OrderFrame) : Statement (.windowSet f) := by intro o h; cases h; exact ⟨rfl, rfl⟩
theorem windowClear (f : OrderFrame) : Statement (.windowClear f) := by intro o h; cases h; exact ⟨rfl, rfl⟩
theorem outputConfig (f : OrderFrame) : Statement (.outputConfig f) := by intro o h; cases h; exact ⟨rfl, rfl⟩
theorem heartbeat (f : OrderFrame) : Statement (.heartbeat f) := by intro o h; cases h; exact ⟨rfl, rfl⟩
theorem supervisionConfig (f : OrderFrame) : Statement (.supervisionConfig f) :=
  by intro o h; cases h; exact ⟨rfl, rfl⟩
theorem reclaim (f : OrderFrame) : Statement (.reclaim f) := by intro o h; cases h; exact ⟨rfl, rfl⟩
theorem statusRead (f : OrderFrame) : Statement (.statusRead f) := by intro o h; cases h; exact ⟨rfl, rfl⟩
theorem statusClear (f : OrderFrame) : Statement (.statusClear f) := by intro o h; cases h; exact ⟨rfl, rfl⟩
theorem statusMask (f : OrderFrame) : Statement (.statusMask f) := by intro o h; cases h; exact ⟨rfl, rfl⟩
theorem attentionConfig (f : OrderFrame) : Statement (.attentionConfig f) := by intro o h; cases h; exact ⟨rfl, rfl⟩
theorem addressMaskSet (f : OrderFrame) : Statement (.addressMaskSet f) := by intro o h; cases h; exact ⟨rfl, rfl⟩
theorem playbackConfig (f : OrderFrame) : Statement (.playbackConfig f) := by intro o h; cases h; exact ⟨rfl, rfl⟩
theorem unknownOrder (kind : Byte) (f : OrderFrame) : Statement (.unknownOrder kind f) := by intro o h; cases h
theorem ignoredFrame (kind : Byte) (f : OrderFrame) : Statement (.ignoredFrame kind f) := by intro o h; cases h
theorem frameCheckFail (kind : Byte) (f : OrderFrame) (check : Word16) : Statement (.frameCheckFail kind f check) :=
  by intro o h; cases h
theorem frameAbandon (received : List Byte) (last : Byte) (fault : Bool) : Statement (.frameAbandon received last fault) :=
  by intro o h; cases h
theorem frameGapExpiry (received : List Byte) : Statement (.frameGapExpiry received) := by intro o h; cases h
theorem answerSend : Statement .answerSend := by intro o h; cases h
theorem answerSent : Statement .answerSent := by intro o h; cases h
theorem answerPendingCollision (byte : Byte) (fault : Bool) : Statement (.answerPendingCollision byte fault) :=
  by intro o h; cases h
theorem readbackCollision (index : Nat) (byte : Byte) (fault : Bool) : Statement (.readbackCollision index byte fault) :=
  by intro o h; cases h
theorem surfaceReport (scan : Byte) (words : Vector Word16 16) : Statement (.surfaceReport scan words) :=
  by intro o h; cases h
theorem surfaceFrameDropped (scan : Byte) (words : Vector Word16 16) (check : Word16) : Statement (.surfaceFrameDropped scan words check) :=
  by intro o h; cases h
theorem surfaceGapExpiry (received : List Byte) : Statement (.surfaceGapExpiry received) := by intro o h; cases h
theorem motorFrameSend : Statement .motorFrameSend := by intro o h; cases h
theorem surfaceLoss : Statement .surfaceLoss := by intro o h; cases h
theorem stuckTouchExpiry (strip : Strip) : Statement (.stuckTouchExpiry strip) := by intro o h; cases h
theorem glideExpiry (target : Target) : Statement (.glideExpiry target) := by intro o h; cases h
theorem goLinePress : Statement .goLinePress := by intro o h; cases h
theorem followExpiry : Statement .followExpiry := by intro o h; cases h
theorem lockoutExpiry : Statement .lockoutExpiry := by intro o h; cases h
theorem delayExpiry (target : Target) : Statement (.delayExpiry target) := by intro o h; cases h
theorem fadeCompletion (target : Target) : Statement (.fadeCompletion target) := by intro o h; cases h
theorem resolutionCompletion : Statement .resolutionCompletion := by intro o h; cases h
theorem rampArrival (channel : Channel) : Statement (.rampArrival channel) := by intro o h; cases h
theorem stopLineFall : Statement .stopLineFall := by intro o h; cases h
theorem stopLineRise : Statement .stopLineRise := by intro o h; cases h
theorem outputPeriodExpiry : Statement .outputPeriodExpiry := by intro o h; cases h
theorem windowExpiry : Statement .windowExpiry := by intro o h; cases h
theorem attnPulse : Statement .attnPulse := by intro o h; cases h
theorem fullReset : Statement .fullReset := by intro o h; cases h
theorem fullResetEnd (pins : Address) (goLine stopLine : Level) : Statement (.fullResetEnd pins goLine stopLine) :=
  by intro o h; cases h
theorem surfaceFramingFault (received : List Byte) (last : Byte) : Statement (.surfaceFramingFault received last) :=
  by intro o h; cases h
theorem goLineRise : Statement .goLineRise := by intro o h; cases h

end Sys2Proof.Laws.Frame
end

