-- ==== Sys2Proof/Laws/Receivers.lean ====
section
/-! SUPPORT. What the surface receiver does with a whole frame (R165). -/

namespace Sys2Proof.Machine

/-- Bytes short of a whole frame are gathered. -/
theorem gatherSurface (s : State) (g bytes : List Byte) (hg : s.surface.rx = .receive g) (h : g.length + bytes.length < 35) :
    bytes.foldl surfaceByte s = { s with surface := { s.surface with rx := .receive (g ++ bytes) } } := by
  induction bytes generalizing s g with
  | nil => simp [← hg]
  | cons b rest ih =>
    simp only [List.length_cons] at h
    have h1 : surfaceByte s b = { s with surface := { s.surface with rx := .receive (g ++ [b]) } } := by
      simp only [surfaceByte, hg]; rw [if_neg (by omega)]
    rw [List.foldl_cons, h1, ih _ (g ++ [b]) rfl (by simp; omega)]
    simp

/-- A lead in HUNT and 35 bytes are one judged frame. -/
theorem wholeSurface (s : State) (bytes : List Byte) (hs : s.surface.rx = .hunt) (h : bytes.length = 35) :
    (surfaceLead :: bytes).foldl surfaceByte s =
      (let t := { s with surface := { s.surface with rx := .receive (bytes.take 34) } }
       noteChanges t (judgeSurface bytes t)) := by
  have hd : bytes = bytes.take 34 ++ [bytes[34]] := by
    rw [List.take_append_getElem]; simp [← h]
  have h1 : surfaceByte s surfaceLead = { s with surface := { s.surface with rx := .receive [] } } := by
    simp [surfaceByte, hs]
  rw [List.foldl_cons, h1]
  conv => lhs; rw [hd]
  rw [List.foldl_append, gatherSurface _ [] (bytes.take 34) rfl (by simp [h])]
  simp only [List.foldl_cons, List.foldl_nil, List.nil_append, surfaceByte]
  rw [if_pos (by simp [h])]
  rw [← hd]

/-- Sixteen words are 32 bytes. -/
theorem stripBytes_length (words : Vector Word16 16) : (stripBytes words).length = 32 := by
  have : ∀ l : List Word16, (l.flatMap wordBytes).length = 2 * l.length := by
    intro l; induction l with
    | nil => rfl
    | cons a l ih => simp [ih, wordBytes]; omega
  rw [stripBytes, this]; simp

/-- The two bytes of a word give it back. -/
theorem wordOfBytes_wordBytes (w : Word16) : wordOfBytes ((wordBytes w).getD 0 0) ((wordBytes w).getD 1 0) = w := by
  simp only [wordOfBytes, wordBytes, List.getD_cons_zero, List.getD_cons_succ]
  apply BitVec.eq_of_getLsbD_eq
  intro i hi
  simp only [BitVec.getLsbD_append, BitVec.getLsbD_setWidth, BitVec.getLsbD_ushiftRight]
  by_cases h : i < 8
  · simp [h]
  · simp [h, show 8 + (i - 8) = i by omega]; omega

/-- The words of a report are read back from its bytes. -/
theorem stripWords_stripBytes (words : Vector Word16 16) (tail : List Byte) :
    stripWords (stripBytes words ++ tail) = words := by
  have key : ∀ (l : List Word16) (k : Nat) (h : k < l.length),
      wordOfBytes ((l.flatMap wordBytes ++ tail).getD (2 * k) 0) ((l.flatMap wordBytes ++ tail).getD (2 * k + 1) 0)
        = l[k] := by
    intro l
    induction l with
    | nil => intro k h; simp at h
    | cons w l ih =>
      intro k h
      cases k with
      | zero => exact wordOfBytes_wordBytes w
      | succ k => exact ih k (by simpa using h)
  apply Vector.ext
  intro i hi
  have := key words.toList i (by simpa using hi)
  simp only [stripWords, Vector.getElem_ofFn]
  rw [stripBytes]
  simpa using this

/-- A completed surface frame is judged by its own scan count, words and check (R165). -/
theorem judgeSurface_frame (scan : Byte) (words : Vector Word16 16) (check : Word16) (s : State) :
    judgeSurface (scan :: stripBytes words ++ wordBytes check) s = actSurfaceCheck scan words check s := by
  have h1 : (scan :: stripBytes words ++ wordBytes check).drop 1 = stripBytes words ++ wordBytes check := rfl
  have hl := stripBytes_length words
  have h2 : ∀ k, (scan :: stripBytes words ++ wordBytes check).getD (33 + k) 0 = (wordBytes check).getD k 0 := by
    intro k
    rw [List.cons_append, show 33 + k = (32 + k) + 1 by omega, List.getD_cons_succ,
      List.getD_eq_getElem?_getD, List.getElem?_append_right (by omega), List.getD_eq_getElem?_getD]
    congr 2; omega
  unfold judgeSurface
  rw [h1, stripWords_stripBytes, h2 0, h2 1, wordOfBytes_wordBytes]
  rfl

end Sys2Proof.Machine
end

