-- ==== Sys2Proof/Laws/Reports.lean ====
section
/-! SUPPORT. What a surface report does to strips and owners (R109–R112): one lemma for each of its three passes. -/

namespace Sys2Proof.Machine

open Sys2Proof.Safety

/-- A let-go never leaves the target PARKED. -/
theorem released_ne_parked (u : Ownership) (p a b c d : Nat) : u.released p ≠ .parked a b c d := by
  unfold Ownership.released; split <;> simp

/-- Strips and owners in agreement (R105), as a property of the Ownership Unit alone. -/
def Ownership.Agree (u : Ownership) : Prop :=
  ∀ (i : Strip) (t : Target), latchedTarget u.strips[i] = some t ↔ u.owners[t] = .operator i

/-- An IDLE or BLOCKED strip holds no target. -/
theorem latched_none {r : StripRecord} (h : r.state = .idle ∨ r.state = .blocked) : latchedTarget r = none := by
  unfold latchedTarget; rcases h with h | h <;> rw [h]

/-- A TOUCHED strip holds its target. -/
theorem latched_some {r : StripRecord} {t : Target} {k : Option StuckTimer} (h : r.state = .touched t k) :
    latchedTarget r = some t := by
  unfold latchedTarget; rw [h]

/-- What a fall does. -/
theorem touchFall_spec {u : Ownership} (h : u.Agree) (i : Strip) :
    let v := u.touchFall i
    (∀ j : Strip, v.strips[j] = if j = i then ⟨.idle, u.strips[j].lastPosition⟩ else u.strips[j])
    ∧ (∀ t : Target, v.owners[t] =
      if u.owners[t] = .operator i then u.released u.strips[i].lastPosition else u.owners[t])
    ∧ v = { u with owners := v.owners, strips := v.strips } := by
  have hi := h i
  have hset : ∀ (w : Ownership) (j : Strip), w.strips = u.strips →
      (w.setStrip i { u.strips[i] with state := .idle }).strips[j] =
        if j = i then ⟨.idle, u.strips[j].lastPosition⟩ else u.strips[j] := by
    intro w j hw
    rw [setStrip_get, hw]
    split
    · rename_i hj; rw [hj]
    · rfl
  cases hs : u.strips[i].state with
  | idle =>
    have hv : u.touchFall i = u := by unfold Ownership.touchFall; rw [hs]
    rw [latched_none (.inl hs)] at hi
    simp only [hv]
    refine ⟨fun j => ?_, fun t => (if_neg fun e => by cases (hi t).mpr e).symm, trivial⟩
    split
    · rename_i hj; rw [hj, ← hs]
    · rfl
  | blocked =>
    have hv : u.touchFall i = u.setStrip i { u.strips[i] with state := .idle } := by
      unfold Ownership.touchFall; rw [hs]
    rw [latched_none (.inr hs)] at hi
    simp only [hv]
    exact ⟨fun j => hset u j rfl, fun t => (if_neg fun e => by cases (hi t).mpr e).symm, rfl⟩
  | touched x k =>
    have hv : u.touchFall i =
        (u.letGo x u.strips[i].lastPosition).setStrip i { u.strips[i] with state := .idle } := by
      unfold Ownership.touchFall; rw [hs]
    rw [latched_some hs] at hi
    simp only [hv]
    refine ⟨fun j => hset _ j rfl, fun t => ?_, rfl⟩
    simp only [setStrip_owners, letGo_get]
    by_cases ht : t = x
    · rw [if_pos ht, if_pos ((hi t).mp (by rw [ht]))]
    · rw [if_neg ht, if_neg fun e => ht (by injection (hi t).mpr e with e; exact e.symm)]

/-- What one fall pass does. -/
theorem fallPass_spec {words : Vector Word16 16} {u : Ownership} (h : u.Agree) (i : Strip) :
    let v := fallPass words u i
    (∀ j : Strip, v.strips[j] =
      if j = i ∧ wordTouch words[i] = false then ⟨.idle, u.strips[j].lastPosition⟩ else u.strips[j])
    ∧ (∀ t : Target, v.owners[t] =
      if u.owners[t] = .operator i ∧ wordTouch words[i] = false then u.released u.strips[i].lastPosition
      else u.owners[t])
    ∧ v = { u with owners := v.owners, strips := v.strips } := by
  cases hw : wordTouch words[i]
  · have hv : fallPass words u i = u.touchFall i := by unfold fallPass; rw [hw]; rfl
    simpa only [hv, and_true] using touchFall_spec h i
  · have hv : fallPass words u i = u := by unfold fallPass; rw [hw]; rfl
    simp only [hv, Bool.true_eq_false, and_false, if_false, implies_true, and_self]

/-- A fall keeps strips and owners in agreement. -/
theorem fallPass_agree {words : Vector Word16 16} {u : Ownership} (h : u.Agree) (i : Strip) :
    (fallPass words u i).Agree := by
  obtain ⟨hs, ho, _⟩ := fallPass_spec (words := words) h i
  intro j t
  rw [hs, ho]
  cases hw : wordTouch words[i]
  · simp only [and_true]
    by_cases hj : j = i
    · subst hj
      rw [if_pos rfl]
      simp only [latchedTarget]
      constructor
      · intro e; cases e
      · split
        · intro e; exact absurd e (released_ne_operator _ _ _)
        · intro e; rename_i hn; exact absurd e hn
    · rw [if_neg hj, h j t]
      constructor
      · intro e; rw [if_neg]; exact e; rw [e]; simpa using hj
      · split
        · intro e; exact absurd e (released_ne_operator _ _ _)
        · exact id
  · simpa using h j t

/-- The falls of a report. -/
theorem falls_spec (words : Vector Word16 16) (L : List Strip) :
    ∀ {u : Ownership}, u.Agree →
    let v := L.foldl (fallPass words) u
    (∀ j : Strip, v.strips[j] =
      if j ∈ L ∧ wordTouch words[j] = false then ⟨.idle, u.strips[j].lastPosition⟩ else u.strips[j])
    ∧ (∀ t : Target, v.owners[t] =
      match u.owners[t] with
      | .operator j =>
        if j ∈ L ∧ wordTouch words[j] = false then u.released u.strips[j].lastPosition else .operator j
      | o => o)
    ∧ v = { u with owners := v.owners, strips := v.strips } := by
  induction L with
  | nil => intro u _; refine ⟨fun j => by simp, fun t => ?_, rfl⟩; simp; cases u.owners[t] <;> rfl
  | cons i L ih =>
    intro u h
    obtain ⟨hs, ho, hv⟩ := fallPass_spec (words := words) h i
    obtain ⟨is, io, iv⟩ := ih (fallPass_agree h i)
    have hg : ∀ p, (fallPass words u i).released p = u.released p := by
      intro p; unfold Ownership.released; rw [hv]
    have hl : ∀ j : Strip, (fallPass words u i).strips[j].lastPosition = u.strips[j].lastPosition := by
      intro j; rw [hs]; split <;> rfl
    simp only [List.foldl_cons]
    refine ⟨fun j => ?_, fun t => ?_, ?_⟩
    · rw [is, hl, hs]
      by_cases hj : j = i
      · subst hj; cases wordTouch words[j] <;> simp
      · simp [hj]
    · rw [io, ho]
      cases hu : u.owners[t] with
      | operator j =>
        simp only [Owner.operator.injEq]
        by_cases hj : j = i
        · subst hj
          cases hw : wordTouch words[j]
          · simp; cases hr : u.released u.strips[j].lastPosition <;> simp
            · exact absurd hr (released_ne_operator _ _ _)
          · simp only [Bool.true_eq_false, and_false, if_false]; rw [hw]; simp
        · simp only [hj, false_and, if_false, List.mem_cons, false_or, hg, hl]
      | _ => simp
    · rw [iv, hv]

/-- The record a hold leaves. -/
def heldRecord (r : StripRecord) (p : Nat) : StripRecord :=
  match r.state with
  | .touched t k => ⟨.touched t (k.map (·.hold p)), p⟩
  | .blocked => ⟨.blocked, p⟩
  | .idle => r

/-- What one hold pass does: strip records alone change. -/
theorem holdPass_spec (words : Vector Word16 16) (u : Ownership) (i : Strip) :
    let v := holdPass words u i
    (∀ j : Strip, v.strips[j] =
      if j = i ∧ wordTouch words[i] = true then heldRecord u.strips[j] (wordPosition words[j]) else u.strips[j])
    ∧ v = { u with strips := v.strips } := by
  cases hw : wordTouch words[i]
  · have hv : holdPass words u i = u := by unfold holdPass; rw [hw]; rfl
    simp only [hv, Bool.false_eq_true, and_false, if_false, implies_true, and_self]
  · have hv : holdPass words u i = u.touchHold i (wordPosition words[i]) := by unfold holdPass; rw [hw]; rfl
    simp only [hv, and_true]
    have hset : ∀ (j : Strip) (r : StripRecord), r = heldRecord u.strips[i] (wordPosition words[i]) →
        (u.setStrip i r).strips[j] =
          if j = i then heldRecord u.strips[j] (wordPosition words[j]) else u.strips[j] := by
      intro j r hr
      rw [setStrip_get]
      split
      · rename_i hj; rw [hr, hj]
      · rfl
    cases hs : u.strips[i].state with
    | idle =>
      have hv : u.touchHold i (wordPosition words[i]) = u := by unfold Ownership.touchHold; rw [hs]
      simp only [hv, and_true]
      intro j; split
      · rename_i hj; rw [hj]; unfold heldRecord; rw [hs]
      · rfl
    | blocked =>
      have hv : u.touchHold i (wordPosition words[i]) = u.setStrip i ⟨.blocked, wordPosition words[i]⟩ := by
        unfold Ownership.touchHold; rw [hs]
      simp only [hv]
      exact ⟨fun j => hset j _ (by unfold heldRecord; rw [hs]), rfl⟩
    | touched t k =>
      have hv : u.touchHold i (wordPosition words[i]) =
          u.setStrip i ⟨.touched t (k.map (·.hold (wordPosition words[i]))), wordPosition words[i]⟩ := by
        unfold Ownership.touchHold; rw [hs]
      simp only [hv]
      exact ⟨fun j => hset j _ (by unfold heldRecord; rw [hs]), rfl⟩

/-- The holds of a report. -/
theorem holds_spec (words : Vector Word16 16) (L : List Strip) (hn : L.Nodup) :
    ∀ u : Ownership,
    let v := L.foldl (holdPass words) u
    (∀ j : Strip, v.strips[j] =
      if j ∈ L ∧ wordTouch words[j] = true then heldRecord u.strips[j] (wordPosition words[j]) else u.strips[j])
    ∧ v = { u with strips := v.strips } := by
  induction L with
  | nil => intro u; exact ⟨fun j => by simp, rfl⟩
  | cons i L ih =>
    intro u
    obtain ⟨hs, hv⟩ := holdPass_spec words u i
    obtain ⟨is, iv⟩ := ih (List.nodup_cons.mp hn).2 (holdPass words u i)
    have hi := (List.nodup_cons.mp hn).1
    simp only [List.foldl_cons]
    refine ⟨fun j => ?_, ?_⟩
    · rw [is, hs]
      by_cases hj : j = i
      · subst hj; simp [hi]
      · simp [hj]
    · rw [iv, hv]

/-- The strip's target on the page may be claimed: it is AUTO or GLIDE (R104). -/
theorem claimable_iff (u : Ownership) (i : Strip) (t : Target) :
    u.claimable i = some t ↔ u.bank[u.page][i] = some t
      ∧ (∀ j, u.owners[t] ≠ .operator j) ∧ ∀ a b c d, u.owners[t] ≠ .parked a b c d := by
  unfold Ownership.claimable
  cases hb : u.bank[u.page][i] with
  | none => simp
  | some x =>
    by_cases hx : x = t
    · subst hx
      simp only
      cases ho : u.owners[x] <;> simp
    · simp only
      constructor
      · intro h; split at h
        · injection h with h; exact absurd h hx
        · injection h with h; exact absurd h hx
        · cases h
        · cases h
      · rintro ⟨h, _⟩; injection h with h; exact absurd h hx

/-- The record a touch rise leaves (R110). -/
def Ownership.risenRecord (u : Ownership) (i : Strip) (p : Nat) : StripRecord :=
  match u.claimable i with
  | some t => ⟨.touched t (startStuck u.stuckTime p), p⟩
  | none => ⟨.blocked, p⟩

/-- What a touch rise does. -/
theorem touchRise_spec (u : Ownership) (i : Strip) (p : Nat) :
    let v := u.touchRise i p
    (∀ j : Strip, v.strips[j] = if j = i then u.risenRecord i p else u.strips[j])
    ∧ (∀ t : Target, v.owners[t] = if u.claimable i = some t then .operator i else u.owners[t])
    ∧ v = { u with owners := v.owners, strips := v.strips } := by
  unfold Ownership.touchRise Ownership.risenRecord
  cases hc : u.claimable i with
  | none => refine ⟨fun j => by rw [setStrip_get], fun t => by simp, rfl⟩
  | some x =>
    refine ⟨fun j => by rw [setOwner_strips, setStrip_get], fun t => ?_, rfl⟩
    rw [setOwner_get, setStrip_owners]
    simp [eq_comm]

/-- Targets are distinct on the active page (R106). -/
def Ownership.PageDistinct (u : Ownership) : Prop :=
  ∀ (i j : Strip) (t : Target), u.bank[u.page][i] = some t → u.bank[u.page][j] = some t → i = j

/-- A rise leaves what other strips may claim, targets being distinct on the page. -/
theorem touchRise_claimable (u : Ownership) (i : Strip) (p : Nat)
    (hd : u.PageDistinct) (j : Strip) :
    (u.touchRise i p).claimable j = if j = i then none else u.claimable j := by
  obtain ⟨_, ho, hv⟩ := touchRise_spec u i p
  generalize u.touchRise i p = w at ho hv
  have hb : w.bank[w.page] = u.bank[u.page] := by rw [hv]
  apply Option.ext
  intro t
  rw [claimable_iff, hb, ho]
  by_cases hj : j = i
  · rw [if_pos hj]
    subst hj
    constructor
    · rintro ⟨h1, h2, h3⟩
      split at h2
      · exact absurd rfl (h2 j)
      · rename_i hn
        rw [if_neg hn] at h3
        exact absurd ((claimable_iff u j t).mpr ⟨h1, h2, h3⟩) hn
    · intro h; cases h
  · have hni : u.bank[u.page][j] = some t → ¬u.claimable i = some t := fun h1 h =>
      hj (hd j i t h1 ((claimable_iff u i t).mp h).1)
    simp only [if_neg hj]
    rw [claimable_iff u j]
    constructor
    · rintro ⟨h1, h2, h3⟩
      rw [if_neg (hni h1)] at h2 h3
      exact ⟨h1, h2, h3⟩
    · rintro ⟨h1, h2, h3⟩
      rw [if_neg (hni h1)]
      exact ⟨h1, h2, h3⟩

/-- A strip whose touch rises in the report: IDLE before it, its flag set (R109). -/
def Ownership.rises (before : Ownership) (words : Vector Word16 16) (j : Strip) : Prop :=
  wordTouch words[j] = true ∧ before.strips[j].state = .idle

/-- The pass over a rising strip. -/
theorem risePass_rises {before : Ownership} {words : Vector Word16 16} {i : Strip} (h : before.rises words i)
    (u : Ownership) : risePass before words u i = u.touchRise i (wordPosition words[i]) := by
  obtain ⟨h1, h2⟩ := h
  simp only [risePass, h1, h2, decide_true, Bool.and_self, if_true]

/-- The pass over any other strip. -/
theorem risePass_not {before : Ownership} {words : Vector Word16 16} {i : Strip} (h : ¬before.rises words i)
    (u : Ownership) : risePass before words u i = u := by
  unfold risePass
  rw [if_neg]
  unfold Ownership.rises at h
  simpa using h

/-- The rises of the strips of a list, targets being distinct on the page. -/
structure Risen (before : Ownership) (words : Vector Word16 16) (L : List Strip) (u v : Ownership) : Prop where
  risen : ∀ j ∈ L, before.rises words j → v.strips[j] = u.risenRecord j (wordPosition words[j])
  same : ∀ j : Strip, (j ∈ L → ¬before.rises words j) → v.strips[j] = u.strips[j]
  claimed : ∀ (t : Target), ∀ j ∈ L, before.rises words j → u.claimable j = some t → v.owners[t] = .operator j
  kept : ∀ t : Target, (∀ j ∈ L, before.rises words j → u.claimable j ≠ some t) → v.owners[t] = u.owners[t]
  rest : v = { u with owners := v.owners, strips := v.strips }

/-- The rises of a report. -/
theorem rises_spec (before : Ownership) (words : Vector Word16 16) (L : List Strip) (hn : L.Nodup) :
    ∀ u : Ownership, u.PageDistinct →
    Risen before words L u (L.foldl (risePass before words) u) := by
  induction L with
  | nil =>
    intro u _
    exact ⟨by simp, fun _ _ => rfl, by simp, fun _ _ => rfl, rfl⟩
  | cons i L ih =>
    intro u hd
    have hi := (List.nodup_cons.mp hn).1
    have hne : ∀ j, j ∈ L → j ≠ i := fun j hj e => hi (e ▸ hj)
    rw [List.foldl_cons]
    by_cases hr : before.rises words i
    · rw [risePass_rises hr]
      have hcl := touchRise_claimable u i (wordPosition words[i]) hd
      have hs := (touchRise_spec u i (wordPosition words[i])).1
      have ho := (touchRise_spec u i (wordPosition words[i])).2.1
      have hv := (touchRise_spec u i (wordPosition words[i])).2.2
      revert hcl hs ho hv
      generalize u.touchRise i (wordPosition words[i]) = w
      intro hcl hs ho hv
      have hb : w.bank[w.page] = u.bank[u.page] := by rw [hv]
      have hst : w.stuckTime = u.stuckTime := by rw [hv]
      have hrr : ∀ j p, j ≠ i → w.risenRecord j p = u.risenRecord j p := by
        intro j p hj; unfold Ownership.risenRecord; rw [hcl j, if_neg hj, hst]
      have h := ih (List.nodup_cons.mp hn).2 w (by unfold Ownership.PageDistinct; rw [hb]; exact hd)
      generalize L.foldl (risePass before words) w = v at h
      refine ⟨fun j hj h' => ?_, fun j h' => ?_, fun t j hj h' hc => ?_, fun t h' => ?_, by rw [h.rest, hv]⟩
      · by_cases e : j = i
        · rw [e, h.same i (fun h' => absurd h' hi), hs, if_pos rfl]
        · rw [h.risen j (List.mem_of_ne_of_mem e hj) h', hrr j _ e]
      · have e : j ≠ i := fun e => h' (e ▸ List.mem_cons_self) (e ▸ hr)
        rw [h.same j fun hj => h' (List.mem_cons_of_mem _ hj), hs, if_neg e]
      · by_cases e : j = i
        · rw [e] at hc ⊢
          have hown : w.owners[t] = .operator i := by rw [ho, if_pos hc]
          rw [h.kept t, hown]
          intro k _ _ hkc
          exact ((claimable_iff w k t).mp hkc).2.1 i hown
        · exact h.claimed t j (List.mem_of_ne_of_mem e hj) h' (by rw [hcl j, if_neg e, hc])
      · rw [h.kept t, ho, if_neg (h' i List.mem_cons_self hr)]
        intro j hj hj'
        rw [hcl j, if_neg (hne j hj)]
        exact h' j (List.mem_cons_of_mem _ hj) hj'
    · rw [risePass_not hr]
      have h := ih (List.nodup_cons.mp hn).2 u hd
      have hto : ∀ j ∈ i :: L, before.rises words j → j ∈ L := fun j hj h' =>
        List.mem_of_ne_of_mem (by rintro rfl; exact hr h') hj
      exact ⟨fun j hj h' => h.risen j (hto j hj h') h', fun j h' => h.same j fun hj => h' (List.mem_cons_of_mem _ hj),
        fun t j hj h' => h.claimed t j (hto j hj h') h',
        fun t h' => h.kept t fun j hj => h' j (List.mem_cons_of_mem _ hj), h.rest⟩

end Sys2Proof.Machine
end

