-- ==== Sys2Proof/Laws/Resolution.lean ====
section
/-! SUPPORT. What the completion of a resolution does to the fade table and the rest positions (R84, R95, R96). -/

namespace Sys2Proof.Machine

/-- The target receives an installation at the completion (R95, R96). -/
def FadeEngine.installs (u : FadeEngine) (ws : Vector (Option Window) 8) (walk : List CueRecord) (t : Target) : Bool :=
  !targetLocked ws t && u.needsInstall t (resolvedPosition t u.base[t] walk)

/-- The GOTO fade of an installed target (R84). -/
def FadeEngine.gotoFade (u : FadeEngine) (walk : List CueRecord) (time : Nat) (t : Target) : FadeEntry :=
  { target := t, owner := 0, goal := resolvedPosition t u.base[t] walk, duration := time * 100, curve := .linear
    phase := .running (u.automation t) 0 }

/-- One target at the completion. -/
theorem resolveTarget_eq (ws : Vector (Option Window) 8) (walk : List CueRecord) (time : Nat) (u : FadeEngine)
    (t : Target) : u.resolveTarget ws walk time t =
      if u.installs ws walk t then u.install t (resolvedPosition t u.base[t] walk) time else u := by
  unfold FadeEngine.resolveTarget FadeEngine.installs
  cases targetLocked ws t <;> simp

/-- An installation: the target's entries leave, and a GOTO fade joins or the rest position is set (R84). -/
theorem install_spec (u : FadeEngine) (walk : List CueRecord) (time : Nat) (t : Target) :
    let v := u.install t (resolvedPosition t u.base[t] walk) time
    v.entries = (u.entries.filter fun e => decide (e.target ≠ t)) ++ (if 0 < time then [u.gotoFade walk time t] else [])
    ∧ (∀ x : Target, v.rest[x] = if x = t ∧ time = 0 then resolvedPosition t u.base[t] walk else u.rest[x])
    ∧ v.base = u.base ∧ v.lastCompleted = u.lastCompleted := by
  by_cases h : 0 < time
  · have hv : u.install t (resolvedPosition t u.base[t] walk) time = (u.dropAll t).append (u.gotoFade walk time t) := by
      unfold FadeEngine.install; rw [if_pos h]; rfl
    simp only [hv, if_pos h]
    have h0 : time ≠ 0 := by omega
    simp only [h0, and_false, if_false]
    exact ⟨rfl, fun _ => rfl, rfl, rfl⟩
  · have hv : u.install t (resolvedPosition t u.base[t] walk) time =
        (u.dropAll t).setRest t (resolvedPosition t u.base[t] walk) := by
      unfold FadeEngine.install; rw [if_neg h]
    simp only [hv, if_neg h]
    have h0 : time = 0 := by omega
    refine ⟨by simp [FadeEngine.dropAll], fun x => ?_, rfl, rfl⟩
    simp only [h0, and_true]
    rw [setRest_get]
    rfl

/-- Another target's automation position and entries are as before an installation. -/
theorem install_automation (u : FadeEngine) (walk : List CueRecord) (time : Nat) {t x : Target} (h : x ≠ t) :
    (u.install t (resolvedPosition t u.base[t] walk) time).automation x = u.automation x := by
  obtain ⟨he, hr, _, _⟩ := install_spec u walk time t
  unfold FadeEngine.automation
  rw [he, hr, if_neg (c := x = t ∧ time = 0) fun e => h e.1, List.findSome?_append]
  have h2 : (if 0 < time then [u.gotoFade walk time t] else []).findSome?
      (fun e => if e.target = x then e.value? else none) = none := by
    split
    · simp [FadeEngine.gotoFade, h.symm]
    · rfl
  rw [h2, Option.or_none]
  congr 1
  generalize u.entries = l
  induction l with
  | nil => rfl
  | cons a l ih =>
    by_cases ha : a.target = t
    · simp only [List.filter_cons, ha, ne_eq, not_true_eq_false, decide_false, Bool.false_eq_true, if_false, ih,
        List.findSome?_cons]
      simp [show t ≠ x from fun e => h e.symm]
    · simp only [List.filter_cons, ne_eq, ha, not_false_eq_true, decide_true, if_true, List.findSome?_cons, ih]

/-- The targets of a list at the completion, in the list's order (R96). -/
theorem resolve_spec (ws : Vector (Option Window) 8) (walk : List CueRecord) (time : Nat) (L : List Target)
    (hn : L.Nodup) : ∀ u : FadeEngine,
    let v := L.foldl (FadeEngine.resolveTarget ws walk time) u
    v.entries = (u.entries.filter fun e => !(decide (e.target ∈ L) && u.installs ws walk e.target))
      ++ (if 0 < time then (L.filter (u.installs ws walk)).map (u.gotoFade walk time) else [])
    ∧ (∀ x : Target, v.rest[x] =
        if (x ∈ L ∧ u.installs ws walk x = true) ∧ time = 0 then resolvedPosition x u.base[x] walk else u.rest[x])
    ∧ v.base = u.base ∧ v.lastCompleted = u.lastCompleted := by
  induction L with
  | nil =>
    intro u
    refine ⟨?_, fun x => ?_, rfl, rfl⟩
    · rw [List.filter_eq_self.mpr (by simp)]
      split <;> exact (List.append_nil _).symm
    · simp
  | cons t L ih =>
    intro u
    have ht := (List.nodup_cons.mp hn).1
    rw [List.foldl_cons, resolveTarget_eq]
    cases hi : u.installs ws walk t
    · obtain ⟨h1, h2, h3, h4⟩ := ih (List.nodup_cons.mp hn).2 u
      simp only [Bool.false_eq_true, if_false]
      refine ⟨?_, fun x => ?_, h3, h4⟩
      · rw [h1, List.filter_cons, hi]
        congr 1
        apply List.filter_congr
        intro e _
        by_cases he : e.target = t
        · rw [he, hi]; simp
        · simp [he]
      · rw [h2]
        by_cases hx : x = t
        · subst hx; simp [hi]
        · simp [hx]
    · obtain ⟨e1, e2, e3, e4⟩ := install_spec u walk time t
      have ha := fun x (h : x ≠ t) => install_automation u walk time h
      simp only [if_true]
      obtain ⟨h1, h2, h3, h4⟩ := ih (List.nodup_cons.mp hn).2 (u.install t (resolvedPosition t u.base[t] walk) time)
      generalize u.install t (resolvedPosition t u.base[t] walk) time = w at e1 e2 e3 e4 ha h1 h2 h3 h4
      have hin : ∀ x : Target, x ≠ t → w.installs ws walk x = u.installs ws walk x := by
        intro x hx
        unfold FadeEngine.installs FadeEngine.needsInstall
        rw [ha x hx, e3, e1, List.any_append]
        have h2 : (if 0 < time then [u.gotoFade walk time t] else []).any (fun e => decide (e.target = x)) = false := by
          split
          · simp [FadeEngine.gotoFade, hx.symm]
          · rfl
        rw [h2, Bool.or_false, List.any_filter]
        congr 3
        funext e
        by_cases he : e.target = x
        · simp [he, hx]
        · simp [he]
      have hne : ∀ x ∈ L, x ≠ t := by rintro x hx rfl; exact ht hx
      refine ⟨?_, fun x => ?_, by rw [h3, e3], by rw [h4, e4]⟩
      · rw [h1, e1, List.filter_append, List.filter_filter, List.append_assoc]
        congr 1
        · apply List.filter_congr
          intro e _
          by_cases he : e.target = t
          · rw [he, hi]; simp
          · simp [he, hin e.target he]
        · by_cases h0 : 0 < time
          · simp only [if_pos h0]
            have hk : [u.gotoFade walk time t].filter
                (fun e => !(decide (e.target ∈ L) && w.installs ws walk e.target)) = [u.gotoFade walk time t] := by
              simp [FadeEngine.gotoFade, ht]
            have hL : L.filter (w.installs ws walk) = L.filter (u.installs ws walk) :=
              List.filter_congr fun x hx => hin x (hne x hx)
            have hm : ∀ x ∈ L, w.gotoFade walk time x = u.gotoFade walk time x := by
              intro x hx; unfold FadeEngine.gotoFade; rw [ha x (hne x hx), e3]
            rw [hk, hL, List.filter_cons, hi, if_pos rfl, List.map_cons, List.singleton_append,
              List.map_congr_left fun x hx => hm x (List.mem_filter.mp hx).1]
          · simp [h0]
      · rw [h2, e2, e3]
        by_cases hx : x = t
        · subst hx; simp [ht, hi]
        · simp [hx, hin x hx]

end Sys2Proof.Machine
end

