-- ==== Sys2Proof/Laws/Taken.lean ====
section
/-! SUPPORT. From what an order's own checks and effect give to what the command answers: one lemma each for an order
taken, refused, read and refused to read. -/

namespace Sys2Proof.Safety

open Sys2Proof.Machine

/-- A frame addressed to the unit matches exactly (R158). -/
theorem matchAddress_unit (unit mask : Address) : matchAddress unit mask (unit.setWidth 8) = .exact := by
  have h : (unit.setWidth 8).setWidth 5 = unit := by
    apply BitVec.eq_of_toNat_eq; simp only [BitVec.toNat_setWidth]; omega
  simp [matchAddress, h]

/-- The address of an order's frame has bit 7 clear, so its payload may have 48 bytes (R157). -/
theorem maxPayload_of_lt {a : Byte} (h : a.toNat < 32) : maxPayload a = 48 := by
  have : a.getLsbD 7 = false := by
    rw [BitVec.getLsbD, Nat.testBit_lt_two_pow (by omega)]
  unfold maxPayload; rw [this]; rfl

theorem unit_lt (unit : Address) : (unit.setWidth 8 : Byte).toNat < 32 := by
  have := unit.isLt; simp only [BitVec.toNat_setWidth]; omega

/-- A frame that differs from the unit address only in the mask's bits matches masked (R158). -/
theorem matchAddress_masked {unit mask : Address} {a : Byte} (hlt : a.toNat < 32) (hne : a.setWidth 5 ≠ unit)
    (hm : ∀ k < 5, a.getLsbD k ≠ unit.getLsbD k → mask.getLsbD k = true) :
    matchAddress unit mask a = .masked := by
  have hb : ∀ k, 5 ≤ k → a.getLsbD k = false := by
    intro k hk
    rw [BitVec.getLsbD, Nat.testBit_lt_two_pow]
    calc a.toNat < 2 ^ 5 := hlt
      _ ≤ 2 ^ k := Nat.pow_le_pow_right (by decide) hk
  have hz : (a.setWidth 5 ^^^ unit) &&& ~~~mask = 0 := by
    apply BitVec.eq_of_getLsbD_eq
    intro k hk
    have := hm k hk
    simp only [BitVec.getLsbD_and, BitVec.getLsbD_xor, BitVec.getLsbD_setWidth, BitVec.getLsbD_not, hk, decide_true,
      Bool.true_and]
    cases ha : a.getLsbD k <;> cases hu : unit.getLsbD k <;> cases hmk : mask.getLsbD k <;> simp_all
  unfold matchAddress; rw [hb 5 (by omega), hb 6 (by omega), hb 7 (by omega), if_neg (by simp), if_neg hne, if_pos hz]

/-- An order's frame at an exact match. -/
theorem exec_exact {i : Instr} {kind : Byte} {f : OrderFrame} {s : State} (ho : i.order? = some (kind, f))
    (h48 : f.payload.length ≤ 48) (h : Exact f s) :
    exec i s = .next (noteChanges s (takeExact kind ((orderSpec kind).getD unknownSpec) f s)) := by
  obtain ⟨⟨hr, hp⟩, ha⟩ := h
  have hmax : maxPayload f.address = 48 := maxPayload_of_lt (by rw [ha]; exact unit_lt _)
  rw [exec_order ho, event_run hr, arrive_hunt hp, completedFrame, takeFrame_exact (by omega)
    (by rw [ha]; exact matchAddress_unit _ _), portHunt_of_hunt hp]

/-- An order's frame at a masked match. -/
theorem exec_masked {i : Instr} {kind : Byte} {f : OrderFrame} {s : State} (ho : i.order? = some (kind, f))
    (h48 : f.payload.length ≤ 48) (h : Masked f s) :
    exec i s = .next (noteChanges s (takeMasked ((orderSpec kind).getD unknownSpec) f s)) := by
  obtain ⟨⟨hr, hp⟩, hlt, hne, hm⟩ := h
  have hmax : maxPayload f.address = 48 := maxPayload_of_lt hlt
  rw [exec_order ho, event_run hr, arrive_hunt hp, completedFrame, takeFrame_masked (by omega)
    (matchAddress_masked hlt hne hm), portHunt_of_hunt hp]

/-- A pending answer is no change of the present-state set. -/
theorem noteChanges_pendAnswer (k t r : Byte) (d : List Byte) (s : State) :
    noteChanges s (pendAnswer k t r d s) = pendAnswer k t r d s :=
  noteChanges_same rfl

/-- A latched event is no change of the present-state set. -/
theorem noteChanges_latch (e : Event) (s : State) : noteChanges s (latch e s) = latch e s :=
  noteChanges_same rfl

variable {i : Instr} {kind : Byte} {f : OrderFrame} {s t : State} {data : List Byte} {o : OrderSpec} {reason : Reason}

/-- An order whose effect is given is taken. -/
theorem takenAs (ho : i.order? = some (kind, f)) (hs : orderSpec kind = some o) (h48 : f.payload.length ≤ 48)
    (hm : o.maskedIgnored = false) (hj : judgeOrder o f.payload s = .done data t) :
    TakenAs i kind f s data t := by
  refine ⟨fun h => ?_, fun h => ?_⟩
  · rw [exec_exact ho h48 h, hs, Option.getD_some, takeExact_done hj]; rfl
  · rw [exec_masked ho h48 h, hs, Option.getD_some, takeMasked, hm, hj]; rfl

/-- An order whose refusal is given is refused; a GO without standby apart. -/
theorem refusedAs (ho : i.order? = some (kind, f)) (hs : orderSpec kind = some o) (h48 : f.payload.length ≤ 48)
    (hm : o.maskedIgnored = false) (hne : reason ≠ .endOfCues) (hj : judgeOrder o f.payload s = .refuse reason data) :
    RefusedAs i kind f s reason data := by
  have hl : latchRefusal reason s = s := by simp [latchRefusal, hne]
  refine ⟨fun h => ?_, fun h => ?_⟩
  · rw [exec_exact ho h48 h, hs, Option.getD_some, takeExact_refuse hj, hl, noteChanges_pendAnswer]
  · rw [exec_masked ho h48 h, hs, Option.getD_some, takeMasked, hm, hj]
    simp only [hl, Bool.false_eq_true, if_false, noteChanges_latch]

/-- A reading order whose answer is given is taken. -/
theorem readAs (ho : i.order? = some (kind, f)) (hs : orderSpec kind = some o) (h48 : f.payload.length ≤ 48)
    (hm : o.maskedIgnored = true) (hj : judgeOrder o f.payload s = .done data t) : ReadAs i kind f s data t := by
  refine ⟨fun h => ?_, fun h => ?_⟩
  · rw [exec_exact ho h48 h, hs, Option.getD_some, takeExact_done hj]; rfl
  · rw [exec_masked ho h48 h, hs, Option.getD_some, takeMasked, hm]
    exact congrArg _ (noteChanges_same rfl)

/-- A reading order whose refusal is given is refused. -/
theorem readRefusedAs (ho : i.order? = some (kind, f)) (hs : orderSpec kind = some o) (h48 : f.payload.length ≤ 48)
    (hm : o.maskedIgnored = true) (hne : reason ≠ .endOfCues) (hj : judgeOrder o f.payload s = .refuse reason []) :
    ReadRefusedAs i kind f s reason := by
  have hl : latchRefusal reason s = s := by simp [latchRefusal, hne]
  refine ⟨fun h => ?_, fun h => ?_⟩
  · rw [exec_exact ho h48 h, hs, Option.getD_some, takeExact_refuse hj, hl, noteChanges_pendAnswer]
  · rw [exec_masked ho h48 h, hs, Option.getD_some, takeMasked, hm]
    exact congrArg _ (noteChanges_same rfl)

/-! ### Shared effects in the statements' words -/

/-- In STANDBY and RUNNING a record is fired as `firedState` says. -/
theorem fire_eq {r : CueRecord} {s : State} (h : s.play.state = .standby ∨ s.play.state = .running) :
    fire r s = firedState r s := by
  unfold fire firedState settle recomputeStandby
  rw [fireMoves_eq r s]
  rcases h with h | h <;> simp [followTable, h, computedStandby]

/-- A firing in STANDBY or RUNNING changes no present state. -/
theorem present_firedState {r : CueRecord} {s : State} (h : s.play.state = .standby ∨ s.play.state = .running) :
    present s = present (firedState r s) := by
  unfold present firedState
  rcases h with h | h <;> simp only [h] <;> split <;>
    simp [PlayState.isResolving]

/-- The standby after a change of the table. -/
theorem standbyAfterEdit_eq (s : State) :
    standbyAfterEdit s = { s with play := { s.play with standby := standbyOver s.cues.table s.play } } := by
  obtain ⟨_, _, _, _, _, ⟨_, _, _, standby, _, _, _, _⟩, _, _, _, _, _, _, _, _⟩ := s
  unfold standbyAfterEdit standbyOver recomputeStandby computedStandby
  rcases standby with _ | ⟨n, e⟩
  · rfl
  · cases e
    · rfl
    · simp only
      split <;> rfl

/-- An entry's leaving by completion. -/
theorem settle_recordCompletion (owner : Nat) (u : FadeEngine) (s : State) :
    settle (recordCompletion owner { s with fade := u }) = leftByCompletion owner u s := by
  unfold recordCompletion leftByCompletion settle
  have hiff : (owner ≠ 0 ∧ u.entries.all (fun e => decide (e.owner ≠ owner)) = true)
      ↔ (owner ≠ 0 ∧ ∀ e ∈ u.entries, e.owner ≠ owner) := by simp
  by_cases h : owner ≠ 0 ∧ ∀ e ∈ u.entries, e.owner ≠ owner
  · simp only [if_pos h, if_pos (hiff.mpr h)]; rfl
  · simp only [if_neg h, if_neg fun x => h (hiff.mp x)]

/-- An entry's leaving by completion changes no present state. -/
theorem present_leftByCompletion (owner : Nat) (u : FadeEngine) (s : State) :
    present s = present (leftByCompletion owner u s) := by
  unfold leftByCompletion present followTable
  cases h : s.play.state <;> simp [PlayState.isResolving] <;> split <;> simp

end Sys2Proof.Safety
end

