-- ==== Sys2Proof/Tests/Slice0.lean ====
section
/-! SUPPORT. Tests: well-formedness refuses what it should; frames written out byte by byte; each statement's hypotheses
are met, clause by clause; single steps on small states, with values of the manual's worked examples. -/

namespace Sys2Proof.Tests

open Sys2Proof.Machine Sys2Proof.Safety

-- One theorem at a time: each kernel evaluation otherwise holds a thread of its own while it waits.
set_option Elab.async false

/-! ### Well-formedness -/

/-- An order's frame to unit 0. -/
def frame (payload : List Byte) : OrderFrame := ⟨0, 7, payload⟩

theorem test_wf_refuses_long_payload : (Instr.hold (frame (List.replicate 49 0))).wf = false := by decide

theorem test_wf_refuses_answer_address : (Instr.hold ⟨0x80, 7, []⟩).wf = false := by decide

theorem test_wf_refuses_listed_unknown : (Instr.unknownOrder 0x10 (frame [])).wf = false := by decide

theorem test_wf_refuses_long_unknown : (Instr.unknownOrder 0x7F (frame (List.replicate 49 0))).wf = false := by decide

theorem test_wf_refuses_long_ignored : (Instr.ignoredFrame 0x10 ⟨0x80, 7, List.replicate 53 0⟩).wf = false := by decide

theorem test_wf_refuses_good_check :
    (Instr.frameCheckFail 0x11 (frame []) (frameCheck 0x11 (frame []))).wf = false := by decide +kernel

theorem test_wf_refuses_long_checked : (Instr.frameCheckFail 0x11 (frame (List.replicate 49 0)) 0).wf = false := by
  decide

theorem test_wf_refuses_headless_abandon : (Instr.frameAbandon [0x11] 0 true).wf = false := by decide

theorem test_wf_refuses_harmless_abandon : (Instr.frameAbandon [0xA5, 0, 0x11, 7] 48 false).wf = false := by decide

theorem test_wf_refuses_headless_gap : (Instr.frameGapExpiry [0x11]).wf = false := by decide

theorem test_wf_refuses_good_surface_check :
    (Instr.surfaceFrameDropped 1 (Vector.replicate 16 0) (surfaceCheck 1 (Vector.replicate 16 0))).wf = false := by
  decide +kernel

theorem test_wf_refuses_headless_surface_gap : (Instr.surfaceGapExpiry [0xA5]).wf = false := by decide

theorem test_wf_refuses_headless_surface_fault : (Instr.surfaceFramingFault [0x00] 0).wf = false := by decide

theorem test_wf_accepts :
    (Instr.go (frame [0, 0])).wf = true ∧ (Instr.frameAbandon [0xA5, 0, 0x11, 7] 49 false).wf = true
      ∧ (Instr.surfaceGapExpiry [0xC3, 1]).wf = true ∧ (Instr.unknownOrder 0x7F (frame [])).wf = true := by decide

/-! ### Frames -/

/-- The check value of the manual (R156). -/
theorem test_check_value : crc16 [0x31, 0x32, 0x33, 0x34, 0x35, 0x36, 0x37, 0x38, 0x39] = 0x29B1#16 := by
  decide +kernel

/-- GO, expected 25, to address 7, byte by byte (section 9.6). -/
theorem test_go_frame :
    (encode (.go ⟨7, 1, [0, 25]⟩)).map (·.take 7) = some [0xA5, 7, 0x10, 1, 2, 0, 25]
      ∧ (encode (.go ⟨7, 1, [0, 25]⟩)).bind decodeFrame = some (.go ⟨7, 1, [0, 25]⟩) := by decide +kernel

theorem test_bad_check_decodes_to_nothing : decodeFrame [0xA5, 7, 0x11, 1, 0, 0, 0] = none := by decide +kernel

/-- The byte receiver given HOLD's frame does what HOLD does (section 9.2). -/
theorem test_receiver_takes_hold :
    (linkBytes (frameBytes 0x11 (frame [])) State.reset).play.state = .held := by decide +kernel

theorem test_table_words_spell_nothing :
    decodeTableWord 16 0x1234 = none ∧ State.reset.withFetchWord 16 0x1234 = State.reset := ⟨rfl, rfl⟩

/-! ### Small states -/

/-- The unit right after a reset; its address is 0. -/
def unit : State := State.reset

/-- A cue with one move, of channel C1 to 700, and a follow wait. -/
def cueFive : CueRecord :=
  { number := 5, kind := .track, defaultFade := 30, defaultCurve := .linear, followWait := some 20
    moves := [⟨0, 700, none, none, none⟩], actions := [⟨.group 0, .mute⟩] }

/-- A cue without moves. -/
def cueNine : CueRecord :=
  { number := 9, kind := .block, defaultFade := 30, defaultCurve := .s, followWait := none, moves := [], actions := [] }

/-- A unit that stores both cues and stands by on the first. -/
def cued : State :=
  { unit with
    cues := { table := [cueFive, cueNine], poolFree := 5999, edit := none }
    play := { unit.play with standby := some ⟨5, false⟩ } }

/-- A unit in a playback state. -/
def inState (p : PlayState) (s : State) : State :=
  { s with play := { s.play with state := p } }

/-- A resolution in flight toward cue 9. -/
def jump : Resolution := ⟨9, 20, 0, false⟩

/-- A unit in LOCAL mode. -/
def isolated : State :=
  { unit with sup := { unit.sup with localMode := true } }

/-- A unit with an open draft. -/
def drafting (draft : CueRecord) (s : State) : State :=
  { s with cues := { s.cues with edit := some draft } }

/-- A unit with a fade table. -/
def fading (entries : List FadeEntry) (s : State) : State :=
  { s with fade := { s.fade with entries := entries } }

/-- A unit with a window. -/
def mapped (n : Fin 8) (w : Window) (s : State) : State :=
  { s with out := { s.out with windows := s.out.windows.set n (some w) } }

/-- A unit under supervision. -/
def supervised (link : LinkState) (counter : Nat) (elapsed : Nat) : State :=
  { unit with sup := { unit.sup with link := link, counter := counter, window := some ⟨500, elapsed⟩ } }

/-- The Link Port in a state. -/
def port (p : PortState) (s : State) : State :=
  { s with link := { s.link with port := p } }

/-- What a command leaves; every command answers a next state. -/
def after (i : Instr) (s : State) : State :=
  match exec i s with
  | .next t => t
  | .fault _ => s
  | .refused _ => s

/-- The answer's payload pending after a command. -/
def answer (i : Instr) (s : State) : List Byte :=
  match (after i s).link.port with
  | .answerPending a => a.payload
  | .hunt => []
  | .receive _ => []
  | .sending _ => []

/-! ### The hypotheses of the statements are met -/

/-- Both matches of `TakenAs`, `RefusedAs`, `ReadAs` and `ReadRefusedAs`. -/
theorem witness_matches :
    Exact (frame []) unit ∧ Masked ⟨31, 7, []⟩ { unit with link := { unit.link with mask := 31 } }
      ∧ Masked ⟨1, 7, []⟩ { unit with link := { unit.link with mask := 1 } } := by decide +kernel

theorem witness_StepRunsFrontCommand :
    { unit with pending := [Instr.goLineRise] }.pending = Instr.goLineRise :: [] := rfl

theorem witness_TimePasses :
    (unit.pending = [] ∧ unit.inReset = false ∧ forcedEvents unit ++ freeEvents unit = []) ∧ unit.play.freeze = false
      ∧ { unit with play := { unit.play with freeze := true } }.play.freeze = true := by
  refine ⟨⟨rfl, rfl, ?_⟩, rfl, rfl⟩
  have h : forcedEvents unit = [] := by decide +kernel
  rw [h]; rfl

theorem witness_DueEventsQueued :
    ({ unit with clock := 2 }.pending = [] ∧ { unit with clock := 2 }.inReset = false
      ∧ Instr.outputPeriodExpiry ∈ forcedEvents { unit with clock := 2 })
      ∧ ((heldInReset unit).pending = [] ∧ (heldInReset unit).inReset = true)
      ∧ Instr.resolutionCompletion ∈ forcedEvents { inState (.resolving jump) cued with clock := 20 }
      ∧ Instr.resolutionCompletion ∉ forcedEvents { inState (.resolving jump) cued with clock := 19 } := by
  decide +kernel

theorem witness_OrdersRoundTrip :
    (Instr.hold (frame [])).wf = true ∧ (encode (.hold (frame []))).isSome
      ∧ (Instr.moveAdd ⟨31, 255, List.replicate 48 255⟩).wf = true
      ∧ (encode (.moveAdd ⟨31, 255, List.replicate 48 255⟩)).isSome := by decide +kernel

theorem witness_ReceiverTakesWholeFrames :
    (Instr.hold (frame [])).order? = some (0x11, frame []) ∧ (frame []).fits = true
      ∧ (⟨0x80, 7, List.replicate 52 0⟩ : OrderFrame).fits = true ∧ Listening unit := by decide +kernel

theorem witness_FramesFindTheUnit :
    ((⟨3, 7, []⟩ : OrderFrame).fits = true ∧ Listening unit ∧ matchAddress unit.link.address unit.link.mask 3 = .none)
      ∧ (port (.receive [1]) unit).link.port = .receive [1]
      ∧ (port (.answerPending ⟨0x80, 0x11, 7, [0]⟩) unit).link.port = .answerPending ⟨0x80, 0x11, 7, [0]⟩
      ∧ (port (.sending ⟨0x80, 0x11, 7, [0]⟩) unit).link.port = .sending ⟨0x80, 0x11, 7, [0]⟩ := by decide +kernel

theorem witness_SharedChecks :
    (kindListed 0x0F = false ∧ kindListed 0x76 = false ∧ (frame (List.replicate 48 0)).payload.length ≤ 48)
      ∧ (frame [0]).payload.length ∉ payloadLengths 0x10 ∧ (frame [0]).payload.length ∉ payloadLengths 0x70
      ∧ (frame [0, 0]).payload.length ∈ payloadLengths 0x10 ∧ isolated.sup.localMode = true
      ∧ (0x10 : Byte) ∉ acceptedInLocal ∧ (0x70 : Byte) ∈ ignoredWhenMasked ∧ (0x10 : Byte) ∉ ignoredWhenMasked := by
  decide +kernel

theorem witness_FramesLost :
    (Listening unit ∧ (0 : Word16) ≠ frameCheck 0x11 (frame []))
      ∧ (port (.receive []) unit).inReset = false ∧ (port (.receive []) unit).link.port = .receive []
      ∧ maxPayload 0 < (49#8).toNat ∧ maxPayload 0x80 < (53#8).toNat ∧ [0x05#8, 0x11, 7].length < 4 := by
  decide +kernel

theorem witness_FramesLost_answers :
    let a : LinkAnswer := ⟨0x80, 0x11, 7, [0, 2]⟩
    (port (.answerPending a) unit).inReset = false ∧ (port (.answerPending a) unit).link.port = .answerPending a
      ∧ (port (.sending a) unit).link.port = .sending a ∧ a.bytes[0]? = some 0xA5 ∧ a.bytes[8]?.isSome := by
  decide +kernel

theorem witness_FramesLaidOut :
    (-900 : Int) ≤ -900 ∧ (100 : Int) ≤ 100 ∧ (LevelCode.level (-900)).word = 0xFC7C#16
      ∧ (LevelCode.level 100).word = 100#16 := by decide

theorem witness_CodesAreTheManuals :
    (⟨0, 5, 700, 3000, .linear, .waiting 7⟩ : FadeEntry).phase = .waiting 7
      ∧ (⟨0, 5, 700, 3000, .linear, .running 1 3000⟩ : FadeEntry).phase = .running 1 3000
      ∧ targetOf 80 = some 79 ∧ targetOf 81 = none ∧ targetOf 0 = none ∧ subjectOf 64 = some (.channel 63)
      ∧ subjectOf 72 = some (.group 7) ∧ subjectOf 73 = none ∧ bankTarget 255 = some none := by decide

theorem witness_FullResetTaken :
    (heldInReset unit).inReset = true ∧ Instr.goLineRise ≠ .fullReset
      ∧ ∀ p g l, Instr.goLineRise ≠ .fullResetEnd p g l := by
  refine ⟨rfl, by decide, fun _ _ _ => by simp⟩

theorem witness_GoFiresTheStandby :
    (frame [0, 0]).payload.length = 2 ∧ cued.sup.localMode = false ∧ cued.play.state = .standby
      ∧ cued.play.standby = some ⟨5, false⟩ ∧ findCue cued.cues.table 5 = some cueFive
      ∧ wordAt [0, 0] 0 = 0 ∧ wordAt [0, 5] 0 = 5 ∧ cued.play.lockoutRunning = false
      ∧ { cued.play with lockout := some 300 }.lockoutRunning = false := by decide +kernel

theorem witness_GoRefused :
    (inState .held cued).play.state = .held ∧ (inState (.resolving jump) cued).play.state.isResolving = true
      ∧ unit.play.standby = none ∧ wordAt [0, 9] 0 ≠ 0 ∧ wordAt [0, 9] 0 ≠ 5
      ∧ { cued.play with lockout := some 299 }.lockoutRunning = true := by decide +kernel

theorem witness_HoldTaken_ResumeTaken :
    (frame []).payload = [] ∧ isolated.sup.localMode = true ∧ unit.sup.localMode = false ∧ unit.play.state = .standby
      ∧ (inState .running unit).play.state = .running ∧ (inState .held unit).play.state = .held
      ∧ (inState (.resolving jump) unit).play.state = .resolving jump
      ∧ { unit.play with freeze := true }.freeze = true ∧ unit.play.freeze = false := by decide +kernel

theorem witness_JumpsAndStandbyTaken :
    (frame [0, 9, 255, 255]).payload.length = 4 ∧ cued.play.state.isResolving = false
      ∧ (inState (.resolving jump) cued).play.state.isResolving = true ∧ isStored cued.cues.table 7 = false
      ∧ isStored cued.cues.table (wordAt [0, 9] 0) = true ∧ (∀ r ∈ cued.cues.table, cued.play.current ≤ r.number)
      ∧ lastBefore cued.cues.table 6 = some 5 ∧ (frame [0, 9]).payload.length = 2
      ∧ byteAt [0, 0, 0, 0, 0, 0, 2] 6 > 1 ∧ byteAt [0, 0, 0, 0, 0, 0, 1] 6 ≤ 1
      ∧ 299 < unit.play.config.lockoutTime ∧ ¬300 < unit.play.config.lockoutTime := by decide +kernel

theorem witness_GoLineAndTimers :
    cued.inReset = false ∧ { cued.play with goLine := Level.low }.goLine = .low ∧ cued.play.goLine = .high
      ∧ cued.play.config.localGo = true ∧ isolated.sup.localMode = true
      ∧ { cued.play.config with localGo := false }.localGo = false ∧ (inState .held cued).play.state = .held
      ∧ unit.play.standby = none ∧ cued.play.standby = some ⟨5, false⟩
      ∧ findCue cued.cues.table 5 = some cueFive := by decide +kernel

theorem witness_GoLineAndTimers_timers :
    { cued.play with follow := some 0 }.follow = some 0 ∧ cued.play.state = .standby ∧ unit.play.standby = none
      ∧ findCue cued.cues.table 5 = some cueFive ∧ { unit.play with lockout := some 300 }.lockout = some 300
      ∧ unit.play.config.lockoutTime ≤ 300 := by decide +kernel

theorem witness_ShowResetTaken_StatusReadReports :
    (frame []).payload = [] ∧ unit.sup.localMode = false ∧ unit.status.policy = .orderClears
      ∧ { unit.status with policy := .readClears }.policy = .readClears := by decide +kernel

theorem witness_HeartbeatsJudged_questions : (1 : Byte) ≠ 0 ∧ nextQuestion 255 ≠ 0 ∧ firstQuestion 255 = 255 := by decide

theorem witness_TableLookups :
    cued.cues.table.Pairwise (fun a b => a.number < b.number) ∧ nextAfter cued.cues.table 5 = some 9
      ∧ nextAfter cued.cues.table 9 = none ∧ lastBefore cued.cues.table 9 = some 5
      ∧ lastBefore cued.cues.table 5 = none ∧ (insertCue { cueFive with number := 7 } cued.cues.table).length = 3
      ∧ (removeCue 5 cued.cues.table).length = 1 := by decide +kernel

theorem witness_BufferOpensAndCloses :
    let p : List Byte := [0xEA, 0x60, 1, 0, 0, 3, 0, 0]
    p.length = 8 ∧ unit.cues.edit = none ∧ (drafting cueFive unit).cues.edit ≠ none ∧ 1 ≤ wordAt [0, 1] 0
      ∧ wordAt p 0 ≤ 60000 ∧ 60000 < wordAt [0xEA, 0x61] 0 ∧ kindOf (byteAt p 2) = some .block
      ∧ curveOf (byteAt p 5) = some .s ∧ 1 < byteAt [0, 1, 2] 2 ∧ 3 < byteAt [0, 1, 0, 0, 0, 4] 5
      ∧ wordAt [0, 0] 0 = 0 := by decide +kernel

theorem witness_BufferOpensAndCloses_abandon :
    unit.cues.edit = none ∧ (drafting cueFive unit).cues.edit = some cueFive := by decide +kernel

theorem witness_DraftsAreFilled :
    let move : List Byte := [80, 3, 255, 255, 255, 255, 255, 255]
    let full := (List.finRange 80).map fun t : Target => (⟨t, 0, none, none, none⟩ : Move)
    move.length ∈ payloadLengths 0x21 ∧ (List.replicate 48 0#8).length ∈ payloadLengths 0x21
      ∧ movesOf move = some [⟨79, 1023, none, none, none⟩] ∧ movesOf (81 :: move.tail) = none
      ∧ (applyMoves [] full).length ≤ 128 ∧ 128 < (applyMoves [] (full ++ full)).length
      ∧ [65#8, 1].length ∈ payloadLengths 0x22 ∧ actionsOf [65, 1] = some [⟨.group 0, .mute⟩]
      ∧ actionsOf [73, 1] = none ∧ (applyDraftActions [⟨.group 0, .mute⟩] []).length ≤ 8
      ∧ 8 < (applyDraftActions [⟨.channel 0, .mute⟩]
          ((List.finRange 8).map fun m => ⟨.group m, .opened⟩)).length
      ∧ full.Pairwise (fun a b => a.target < b.target)
      ∧ ([⟨.group 7, .mute⟩, ⟨.channel 0, .mute⟩] : List MuteAction).Pairwise
          (fun a b => a.subject.place < b.subject.place)
      ∧ movesOf [80, 0, 0, 0, 0, 0, 0, 4] = none ∧ actionsOf [72, 2] = none := by decide +kernel

theorem witness_RecordsCommittedAndDeleted :
    let s := drafting cueFive cued
    s.cues.edit = some cueFive ∧ s.play.state.isResolving = false
      ∧ (inState (.resolving jump) s).play.state.isResolving = true ∧ findCue s.cues.table 5 = some cueFive
      ∧ s.cues.poolFree + cueFive.moves.length ≥ 1 ∧ findCue unit.cues.table 5 = none
      ∧ unit.cues.table.length < 500 ∧ 500 ≤ (List.replicate 500 cueNine).length
      ∧ { unit.cues with poolFree := 0 }.poolFree < 1
      ∧ findCue [{ cueFive with moves := [] }] 5 = some { cueFive with moves := [] }
      ∧ findCue (List.replicate 500 cueNine) 5 = none := by decide +kernel

theorem witness_RecordLiveCommits :
    (frame [0, 1, 0]).payload.length = 3 ∧ (drafting cueFive unit).cues.edit ≠ none ∧ unit.cues.edit = none
      ∧ (inState (.resolving jump) unit).play.state.isResolving = true ∧ wordAt [0, 0] 0 = 0 ∧ 1 ≤ wordAt [0, 1] 0
      ∧ 60000 < wordAt [0xEA, 0x61] 0 ∧ 1 < byteAt [0, 1, 2] 2 ∧ kindOf 0 = some .track
      ∧ capacityRefusal unit.cues 1 80 = none ∧ capacityRefusal { unit.cues with poolFree := 79 } 1 80 = some .poolFull
      ∧ capacityRefusal { unit.cues with table := List.replicate 500 cueNine } 1 80 = some .tableFull := by
  decide +kernel

theorem witness_RecordsCommittedAndDeleted_CueReadsReport :
    wordAt [0, 5] 0 = 5 ∧ findCue cued.cues.table 5 = some cueFive ∧ findCue cued.cues.table 6 = none
      ∧ cued.play.state.isResolving = false ∧ (inState (.resolving jump) cued).play.state.isResolving = true
      ∧ wordAt [0, 0] 0 = 0 ∧ wordAt [0, 6] 0 ≠ 0 ∧ cued.cues.edit = none
      ∧ (drafting cueFive unit).cues.edit = some cueFive := by decide +kernel

/-- C1 waiting with its delay run out, C2 running to its end, C3 a delayed snap. -/
def dueEntries : List FadeEntry :=
  [⟨0, 5, 700, 3000, .linear, .waiting 0⟩, ⟨1, 5, 1023, 100, .s, .running 0 100⟩, ⟨2, 0, 1, 0, .linear, .waiting 0⟩]

theorem witness_FiredMoves :
    let locked := mapped 0 ⟨1, 64, 0, true⟩ unit
    targetLocked locked.out.windows 63 = true ∧ targetLocked locked.out.windows 64 = false
      ∧ targetLocked unit.out.windows 0 = false ∧ 0 < (cueFive.fill ⟨0, 0, none, some 1, none⟩).delay
      ∧ (cueFive.fill ⟨0, 0, none, none, none⟩).delay = 0 ∧ 0 < (cueFive.fill ⟨0, 0, none, none, none⟩).fade
      ∧ (cueFive.fill ⟨0, 0, some 0, none, none⟩).fade = 0 := by decide +kernel

theorem witness_FadesExpire :
    (fading dueEntries unit).inReset = false ∧ FadeTableKeyed (fading dueEntries unit)
      ∧ (⟨0, 5, 700, 3000, .linear, .waiting 0⟩ : FadeEntry) ∈ (fading dueEntries unit).fade.entries
      ∧ (⟨1, 5, 1023, 100, .s, .running 0 100⟩ : FadeEntry) ∈ (fading dueEntries unit).fade.entries
      ∧ (⟨2, 0, 1, 0, .linear, .waiting 0⟩ : FadeEntry) ∈ (fading dueEntries unit).fade.entries := by decide +kernel

theorem witness_ResolutionCompletes :
    (inState (.resolving jump) cued).inReset = false
      ∧ (inState (.resolving jump) cued).play.state = .resolving jump := by decide +kernel

theorem witness_TargetsResolved :
    cued.cues.table.Pairwise (fun a b => a.number < b.number)
      ∧ targetLocked (mapped 0 ⟨1, 64, 0, true⟩ unit).out.windows 0 = true
      ∧ targetLocked unit.out.windows 0 = false
      ∧ resolvedPosition 0 unit.fade.base[(0 : Target)] [cueFive] ≠ unit.fade.automation 0
      ∧ resolvedPosition 0 unit.fade.base[(0 : Target)] [] = unit.fade.automation 0
      ∧ (∀ e ∈ unit.fade.entries, e.target ≠ 0)
      ∧ ∃ e ∈ (fading dueEntries unit).fade.entries, e.target = 0 := by decide +kernel

theorem witness_BlendIsExact :
    blend 0 1023 4096 = 1023 ∧ blend 1023 0 2048 = 511 ∧ (1 : Nat) ≤ 2 ∧ rampValue 0 1023 2 1 = blend 1023 0 2048
      ∧ (⟨0, 5, 700, 2, .linear, .running 0 1⟩ : FadeEntry).phase = .running 0 1
      ∧ (unit.own.setOwner 0 (.glide 0 500 499)).owners[(0 : Target)] = .glide 0 500 499 := by decide +kernel

theorem witness_PositionsComputed :
    FadeTableKeyed (fading dueEntries unit)
      ∧ (⟨1, 5, 1023, 100, .s, .running 0 100⟩ : FadeEntry) ∈ (fading dueEntries unit).fade.entries
      ∧ (∀ e ∈ unit.fade.entries, e.target ≠ 0) ∧ unit.own.owners[(0 : Target)] = .auto
      ∧ (unit.own.setOwner 0 (.operator 15)).owners[(0 : Target)] = .operator 15
      ∧ (unit.own.setOwner 0 (.glide 0 500 500)).owners[(0 : Target)] = .glide 0 500 500
      ∧ (unit.own.setOwner 0 (.parked 1 2 3 3)).owners[(0 : Target)] = .parked 1 2 3 3
      ∧ (63 : Target).val = (63 : Channel).val ∧ (79 : Target).val = 64 + (15 : Group).val
      ∧ ((unit.mute.groups.set 0 [15])[(0 : Channel)])[0]? = some (15 : Group) := by decide +kernel

theorem witness_FractionAndCurvesAreExact :
    fraction 1 1 = 4096 ∧ fraction 0 1 = 0 ∧ shape .s 4096 = 4096 ∧ shape .slow 1 = 0 ∧ shape .fast 4095 = 4096
      ∧ shape .s 2047 ≤ 2047 ∧ 2049 ≤ shape .s 2049 := by decide +kernel

theorem witness_LevelsAreExact :
    faderLaw 1 = .level (-900) ∧ faderLaw 1023 = .level 100 ∧ faderLaw 1022 = .level 100
      ∧ (⟨1, 128, -900, -600⟩ : Segment) ∈ segments ∧ (⟨896, 1023, 50, 100⟩ : Segment) ∈ segments
      ∧ lawLevel 127 < -600 := by decide +kernel

theorem witness_LevelsAreExact_combiner :
    ((0 : Nat) ≤ 1023 ∧ combine 0 [0] 0 = .off ∧ combine 1 [0] 0 = .off ∧ combine 1023 [1023] 1000 = .level (-900))
      ∧ combine 0 [768] 0 = .off ∧ combine 768 [0] 0 = .off ∧ combine 1 [1] 0 = .off ∧ combine 1 [768] 0 = .level (-900)
      ∧ combine 1 [768] 1 = .off ∧ combine 1023 [1023] 0 = .level 100 := by decide +kernel

/-- A report with strip S1 touched at a position. -/
def touchOne (position : Nat) : Vector Word16 16 :=
  (Vector.replicate 16 0#16).set 0 (0x8000#16 ||| BitVec.ofNat 16 position)

/-- A unit whose surface is present, S1 assigned to C1 on page 0. -/
def surfaced : State :=
  { unit with
    surface := { unit.surface with silence := some 100 }
    own := { unit.own with bank := unit.own.bank.set 0 (unit.own.bank[0].set 0 (some 0)) } }

/-- The same with S1 touched and holding C1. -/
def holding : State :=
  after (.surfaceReport 1 (touchOne 512)) surfaced

/-- S1 holding C1 at 512, written out. -/
def held : State :=
  { surfaced with own :=
    (surfaced.own.setStrip 0 ⟨.touched 0 (some ⟨512, 0⟩), 512⟩).setOwner 0 (.operator 0) }

theorem held_owned : StripsOwnTheirTargets held := by
  have ho : ∀ t : Target, surfaced.own.owners[t] = .auto := by decide +kernel
  have hs : ∀ i : Strip, surfaced.own.strips[i] = ⟨.idle, 0⟩ := by decide +kernel
  refine ⟨fun i t => ?_, fun h => absurd h (by decide)⟩
  unfold held
  simp only [setOwner_strips, setOwner_get, setStrip_get, setStrip_owners, ho, hs]
  by_cases hi : i = 0 <;> by_cases ht : t = 0 <;> simp [latchedTarget, hi, ht]
  · exact fun h => ht h.symm
  · exact fun h => hi h.symm

theorem witness_ReportsTaken :
    unit.inReset = false ∧ unit.surface.present = false ∧ surfaced.surface.present = true := by decide +kernel

theorem witness_TouchesRiseHoldFall :
    (∀ j : Strip, j ≠ 0 → holding.own.strips[j].state = .idle ∧ wordTouch (touchOne 9)[j] = false)
      ∧ wordTouch (touchOne 9)[(0 : Strip)] = true ∧ wordTouch (Vector.replicate 16 0#16)[(0 : Strip)] = false
      ∧ surfaced.own.strips[(0 : Strip)].state = .idle
      ∧ (holding.own.blockStrip 0).strips[(0 : Strip)].state = .blocked
      ∧ holding.own.strips[(0 : Strip)].state = .touched 0 (some ⟨512, 0⟩)
      ∧ unit.own.bank[unit.own.page][(0 : Strip)] = none ∧ surfaced.own.bank[surfaced.own.page][(0 : Strip)] = some 0
      ∧ surfaced.own.owners[(0 : Target)] = .auto
      ∧ (surfaced.own.setOwner 0 (.glide 1 2 0)).owners[(0 : Target)] = .glide 1 2 0
      ∧ (surfaced.own.setOwner 0 (.parked 1 2 3 0)).owners[(0 : Target)] = .parked 1 2 3 0
      ∧ holding.own.owners[(0 : Target)] = .operator 0 := by decide +kernel

/-- C1 moved from S1 to S2 while S1 holds it. -/
def moved : Ownership :=
  { held.own with bank := held.own.bank.set 0 ((held.own.bank[0].set 0 none).set 1 (some 0)) }

/-- A report with S2 alone touched at a position. -/
def touchTwo (position : Nat) : Vector Word16 16 :=
  (Vector.replicate 16 0#16).set 1 (0x8000#16 ||| BitVec.ofNat 16 position)

/-- S1 frees C1 and S2 claims it in one report. -/
theorem witness_TouchesRiseHoldFall_together :
    (∀ (i : Strip) (t : Target), latchedTarget moved.strips[i] = some t ↔ moved.owners[t] = .operator i)
      ∧ (∀ (i j : Strip) (t : Target), moved.bank[moved.page][i] = some t → moved.bank[moved.page][j] = some t → i = j)
      ∧ (wordTouch (touchTwo 9)[(1 : Strip)] = true ∧ moved.strips[(1 : Strip)].state = .idle
        ∧ moved.bank[moved.page][(1 : Strip)] = some 0 ∧ moved.owners[(0 : Target)] = .operator 0
        ∧ wordTouch (touchTwo 9)[(0 : Strip)] = false)
      ∧ (moved.takeReport (touchTwo 9)).owners[(0 : Target)] = .operator 1
      ∧ (moved.takeReport (touchTwo 9)).strips[(0 : Strip)] = ⟨.idle, 512⟩ := by
  have hb : ∀ i : Strip, i ≠ 1 → moved.bank[moved.page][i] = none := by decide +kernel
  refine ⟨held_owned.1, fun i j t hi hj => ?_, by decide +kernel⟩
  by_cases h0 : i = 1 <;> by_cases h1 : j = 1
  · rw [h0, h1]
  · rw [hb j h1] at hj; cases hj
  · rw [hb i h0] at hi; cases hi
  · rw [hb i h0] at hi; cases hi

theorem witness_SurfaceFramesReceived :
    (0 : Word16) ≠ surfaceCheck 1 (touchOne 9) ∧ unit.surface.rx = .hunt ∧ (0xA5 : Byte) ≠ 0xC3
      ∧ (List.replicate 34 0#8).length < 35
      ∧ (after (.surfaceReport 1 (touchOne 9)) unit).surface.motorQueue ≠ [] := by decide +kernel

theorem witness_SurfaceTimersExpire :
    ({ held.surface with silence := some 0 }.silence = some 0
      ∧ StripsOwnTheirTargets { held with surface := { held.surface with silence := some 0 } })
      ∧ held.own.strips[(0 : Strip)].state = .touched 0 (some ⟨512, 0⟩)
      ∧ held.own.stuckTime * 1000 ≤ (⟨512, 180000⟩ : StuckTimer).elapsed
      ∧ (unit.own.setOwner 0 (.glide 1 500 500)).owners[(0 : Target)] = .glide 1 500 500 := by
  exact ⟨⟨rfl, held_owned.1, fun h => absurd h (by decide)⟩, by decide +kernel⟩

theorem witness_TargetOrdersTaken :
    byteAt [80, 3, 255, 0, 0] 0 = (79 : Target).val + 1 ∧ [80#8, 3, 255, 0, 0].length = 5
      ∧ holding.own.owners[(0 : Target)] = .operator 0 ∧ (∀ i, unit.own.owners[(0 : Target)] ≠ .operator i)
      ∧ (unit.own.setOwner 0 (.parked 1 2 3 0)).owners[(0 : Target)] = .parked 1 2 3 0
      ∧ (unit.own.owners[(0 : Target)] = .auto) ∧ byteAt [0] 0 = 0 ∧ 80 < byteAt [81] 0 := by decide +kernel

theorem witness_TargetReadReports : [nat8 ((79 : Target).val + 1)] = [80#8] := by decide

theorem witness_SurfaceOrdersTaken :
    3 < byteAt [4, 1, 1] 0 ∧ 16 < byteAt [3, 17, 1] 1 ∧ byteAt [3, 0, 1] 1 = 0 ∧ byteAt [3, 16, 0] 2 = 0
      ∧ 80 < byteAt [3, 16, 81] 2 ∧ byteAt [3, 16, 80] 0 = (3 : Fin 4).val ∧ byteAt [3, 16, 80] 1 = (15 : Strip).val + 1
      ∧ bankTarget 80 = some (some 79) ∧ bankTarget 255 = some none
      ∧ (∃ x j, some (0 : Target) = some x ∧ j ≠ 1 ∧ surfaced.own.bank[(0 : Fin 4)][(j : Strip)] = some x)
      ∧ (∀ x j, some (1 : Target) = some x → j ≠ 1 → surfaced.own.bank[(0 : Fin 4)][(j : Strip)] ≠ some x) := by
  decide +kernel

theorem witness_GroupsAndTimesSet :
    byteAt [0, 1] 0 = 0 ∧ 64 < byteAt [65, 1] 0 ∧ 3 < byteAt [1, 4] 1 ∧ byteAt [64, 3, 16, 1, 2] 0 = (63 : Channel).val + 1
      ∧ (∃ k < 3, byteAt [1, 3, 1, 2, 17] (2 + k) = 0 ∨ 16 < byteAt [1, 3, 1, 2, 17] (2 + k))
      ∧ [(15 : Group), 0, 1].map (fun g => g.val + 1) = (List.range 3).map (fun k => byteAt [64, 3, 16, 1, 2] (2 + k))
      ∧ [(15 : Group), 0, 1].Nodup ∧ ¬[(0 : Group), 0].Nodup := by decide +kernel

theorem witness_MuteOrdersTaken :
    subjectOf (byteAt [72, 1] 0) = some (.group 7) ∧ subjectOf 64 = some (.channel 63)
      ∧ muteStateOf (byteAt [72, 1] 1) = some .mute ∧ 72 < byteAt [73, 0] 0 ∧ 1 < byteAt [1, 2] 1 ∧ byteAt [0, 0] 0 = 0
      ∧ 64 < byteAt [65, 0] 0 ∧ byteAt [64, 1] 0 = (63 : Channel).val + 1 ∧ [64#8, 1][1]? = some 1
      ∧ byteAt [64, 1] 1 ≤ 1 := by decide +kernel

/-- C1 muted by its flag; C2 exempt. -/
def flagged : MuteUnit :=
  { unit.mute with flags := unit.mute.flags.set 0 true, exempt := unit.mute.exempt.set 1 true }

theorem witness_RampsTurnAndArrive :
    unit.mute.request 0 = false ∧ flagged.request 0 = true ∧ flagged.stopActive = false
      ∧ { flagged with stopFlag := true }.stopActive = true ∧ flagged.exempt[(1 : Channel)] = true
      ∧ unit.mute.stopCounts 0 = false ∧ { flagged with stopFlag := true }.stopCounts 0 = true
      ∧ (unit.mute.ramps.set 0 (.muting 0 20 false 1))[(0 : Channel)] = .muting 0 20 false 1
      ∧ unit.mute.ramps[(0 : Channel)] = .opened ∧ 1000 - 0 ≤ 1000 * 20 / 20 ∧ 1000 ≤ 1000 * 20 / 20 := by
  decide +kernel

theorem witness_ShowStop :
    (frame []).payload = [] ∧ unit.mute.stopLine = .high ∧ unit.mute.stopFlag = false ∧ unit.inReset = false := by
  decide +kernel

theorem witness_WindowOrdersTaken :
    let one : Window := ⟨1, 64, 64, true⟩
    let two := mapped 0 ⟨1, 1, 127, false⟩ unit
    WindowLegal one ∧ byteAt [7, 1, 64, 64, 1] 0 = (7 : Fin 8).val ∧ byteAt [7, 1, 64, 64, 1] 3 = one.base
      ∧ byteAt [7, 1, 64, 64, 1] 4 = (if one.lock then 1 else 0)
      ∧ two.out.windows[(0 : Fin 8)] = some ⟨1, 1, 127, false⟩
      ∧ slotOf (two.out.windows.set 1 (some ⟨2, 2, 127, false⟩)) 1 = slotOf two.out.windows 0
      ∧ clashSlot (two.out.windows.set 1 (some ⟨2, 2, 127, false⟩)) = some 127
      ∧ (∀ slot < 128, clashSlot two.out.windows ≠ some slot) := by decide +kernel

theorem witness_OutputTimerRuns :
    byteAt [10, 1] 0 ∈ [1, 2, 5, 10] ∧ byteAt [10, 1] 1 = 1 ∧ byteAt [1, 0] 1 = 0 ∧ byteAt [3, 0] 0 ∉ [1, 2, 5, 10]
      ∧ 1 < byteAt [1, 2] 1 ∧ { unit with clock := 2 }.out.next = some 2 ∧ 7 < byteAt [8] 0
      ∧ 127 < byteAt [0, 1, 64, 65, 0] 3 + (byteAt [0, 1, 64, 65, 0] 2 - byteAt [0, 1, 64, 65, 0] 1)
      ∧ 127 < byteAt [0, 1, 1, 128, 0] 3 ∧ byteAt [0, 2, 1, 0, 0] 2 < byteAt [0, 2, 1, 0, 0] 1
      ∧ (let one := mapped 0 ⟨1, 1, 0, false⟩ unit
         slotOf one.out.windows 0 = some (0 : Fin 128).val
          ∧ (∀ d : Channel, slotOf one.out.windows d = some (0 : Fin 128).val → d = 0)
          ∧ ∀ c : Channel, slotOf one.out.windows c ≠ some (1 : Fin 128).val) := by decide +kernel

theorem witness_HeartbeatsJudged :
    let s := supervised .linked 0 124
    let late := supervised .degraded 3 125
    unit.sup.window = none ∧ s.sup.window = some ⟨500, 124⟩ ∧ 124 < 500 / 4 ∧ ¬125 < 500 / 4
      ∧ late.sup.window = some ⟨500, 125⟩ ∧ expectedAnswer late.sup.question late.sup.config.key = 0x40
      ∧ (0x41 : Byte) ≠ 0x40 ∧ (supervised .lost 15 500).sup.window = some ⟨500, 500⟩ := by decide +kernel

theorem witness_HeartbeatsJudged_disabled : LinkStateLegal unit ∧ unit.sup.window = none :=
  ⟨⟨by decide, by decide, by decide, rfl, rfl⟩, rfl⟩

theorem witness_LinkStateFound :
    (supervised .lost 0 0).sup.counter = 0 ∧ (supervised .lost 1 0).sup.counter ≠ 0
      ∧ (supervised .linked 3 0).sup.counter < unit.sup.config.threshold
      ∧ unit.sup.config.threshold ≤ (supervised .degraded 4 0).sup.counter ∧ unit.sup.config.action = .report
      ∧ isStored unit.cues.table unit.sup.config.safeCue = false ∧ isStored cued.cues.table 9 = true
      ∧ { unit.sup.config with action := .localMode }.action = .localMode
      ∧ { unit.sup.config with action := .safe, safeCue := 9 }.action = .safe := by decide +kernel

theorem witness_SupervisionConfigured :
    let p : List Byte := [1, 0x09, 0xC4, 15, 2, 0xEA, 0x60, 0xFF, 0xFF, 0xA0, 0]
    p.length = 11 ∧ byteAt p 0 ≤ 1 ∧ wordAt p 1 ∈ [100, 250, 500, 1000, 2500] ∧ byteAt p 3 ≤ 15
      ∧ actionOf (byteAt p 4) = some .safe ∧ wordAt p 5 ≤ 60000 ∧ unit.sup.window = none
      ∧ (supervised .linked 0 0).sup.window ≠ none ∧ wordAt [0, 0, 101] 1 ∉ [100, 250, 500, 1000, 2500] := by
  decide +kernel

theorem witness_ReclaimTaken :
    isolated.sup.localMode = true ∧ unit.sup.localMode = false ∧ (supervised .linked 0 0).sup.link = .linked
      ∧ (supervised .degraded 1 0).sup.link = .degraded ∧ (supervised .lost 4 0).sup.link = .lost := by decide +kernel

theorem witness_StatusOrdersTaken :
    wordAt [0x1F, 0xFF] 0 < 8192 ∧ 8192 ≤ wordAt [0x20, 0] 0 ∧ 1 < byteAt [2, 0] 0 ∧ 1 < byteAt [0, 2] 1
      ∧ modeOf (byteAt [1, 1] 0) = some .pulse ∧ policyOf (byteAt [1, 1] 1) = some .readClears
      ∧ { unit.status with mode := AttentionMode.pulse, pulses := 1 }.mode = .pulse
      ∧ (31#8).toNat < 32 ∧ 32 ≤ (32#8).toNat ∧ unit.status.mode = .level := by decide +kernel

theorem witness_PresentStatesNoted :
    exec .stopLineFall unit = .next (after .stopLineFall unit) ∧ present unit ≠ present (after .stopLineFall unit)
      ∧ Instr.stopLineFall ≠ .fullReset ∧ (∀ p g l, Instr.stopLineFall ≠ .fullResetEnd p g l)
      ∧ (∀ r b k, Instr.stopLineFall ≠ .frameAbandon r b k) ∧ ∀ r, Instr.stopLineFall ≠ .frameGapExpiry r :=
  ⟨rfl, by decide +kernel, nofun, nofun, nofun, nofun⟩

theorem witness_CommandsKeepOtherBlocks :
    (Instr.hold (frame [])).order? = some (0x11, frame []) ∧ (0x11 : Byte) ∈ ([0x11] : List Byte)
      ∧ Instr.hold (frame []) ≠ .fullReset := by decide

theorem witness_PositionsKept : PositionsInScale cued := by
  refine ⟨by decide +kernel, by decide +kernel, nofun, fun t => ?_, by decide +kernel, by decide +kernel, nofun⟩
  have h : cued.own.owners[t] = .auto := by revert t; decide +kernel
  rw [h]; trivial

theorem witness_CueStoreKept : CueStoreLegal cued.cues := by
  refine ⟨by decide +kernel, by decide +kernel, by decide +kernel, nofun, by decide +kernel⟩

theorem witness_PlaybackKept :
    FadeTableKeyed (fading dueEntries unit) ∧ StateFollowsTable cued
      ∧ StateFollowsTable (inState .running (fading dueEntries unit)) ∧ FreezeFollowsState cued ∧ PointersStored cued
      ∧ PointersStored (inState (.resolving jump) cued) ∧ ResolutionWithinBound { inState (.resolving jump) cued with
        clock := 20 } := by
  have h5 : isStored cued.cues.table 5 = true := by decide +kernel
  have h9 : isStored cued.cues.table 9 = true := by decide +kernel
  refine ⟨by decide +kernel, rfl, by simp [StateFollowsTable, inState, fading, dueEntries], rfl, ⟨?_, trivial⟩,
    ⟨?_, h9⟩, ?_⟩
  · rintro _ ⟨⟩; exact h5
  · rintro _ ⟨⟩; exact h5
  · rintro _ ⟨⟩; decide

theorem witness_OwnershipKept : StripsOwnTheirTargets held ∧ PagesDistinct surfaced := by
  have hb : ∀ (page : Fin 4) (i : Strip), i ≠ 0 → surfaced.own.bank[page][i] = none := by decide +kernel
  refine ⟨held_owned, fun page i j t hi hj => ?_⟩
  by_cases h0 : i = 0 <;> by_cases h1 : j = 0
  · rw [h0, h1]
  · rw [hb page j h1] at hj; cases hj
  · rw [hb page i h0] at hi; cases hi
  · rw [hb page i h0] at hi; cases hi

theorem witness_UnitsKept :
    RampsFollowRequests unit ∧ MembershipsLegal unit ∧ SlotsFedOnce unit ∧ LinkStateLegal (supervised .lost 15 0)
      ∧ LinkStateLegal (supervised .degraded 3 0) ∧ CountsBounded unit ∧ HeldWhileInReset (heldInReset unit) := by
  refine ⟨fun c => ?_, by decide +kernel, ⟨fun n => ?_, fun c d slot h => ?_⟩, ?_, ?_, by decide, fun _ => rfl⟩
  · have h : unit.mute.ramps[c] = .opened := by revert c; decide +kernel
    have hr : unit.mute.request c = false := by revert c; decide +kernel
    rw [h]; exact hr
  · have h : unit.out.windows[n] = none := by revert n; decide +kernel
    rw [h]; nofun
  · have hn : ∀ e : Channel, slotOf unit.out.windows e = none := by decide +kernel
    rw [hn c] at h; cases h
  · exact ⟨by decide, by decide, by decide, rfl, by decide⟩
  · exact ⟨by decide, by decide, by decide, rfl, by decide, by decide⟩

/-! ### Single steps -/

theorem test_go_fires :
    let t := after (.go (frame [0, 5])) cued
    answer (.go (frame [0, 5])) cued = [0, 0, 5, 0, 9] ∧ t.play.current = 5 ∧ t.play.state = .running
      ∧ t.play.follow = some 2000 ∧ t.play.lockout = some 0 ∧ t.mute.groupStates[(0 : MuteGroup)] = .mute
      ∧ t.fade.entries = [⟨0, 5, 700, 3000, .linear, .running 0 0⟩] := by decide +kernel

theorem test_go_refusals :
    answer (.go (frame [0, 9])) cued = [4, 0, 5] ∧ answer (.go (frame [0, 0])) unit = [3]
      ∧ (after (.go (frame [0, 0])) unit).status.latched .endReached = true
      ∧ answer (.go (frame [0, 0])) (inState .held cued) = [2]
      ∧ answer (.go (frame [0, 0])) (inState (.resolving jump) cued) = [1]
      ∧ answer (.go (frame [0])) cued = [20] ∧ answer (.go (frame [0, 0])) isolated = [17] := by decide +kernel

theorem test_masked_go :
    let s := { cued with link := { cued.link with mask := 3 } }
    let t := after (.go ⟨3, 1, [0, 9]⟩) s
    t.link.port = .hunt ∧ t.status.latched .groupRefused = true ∧ t.play = s.play
      ∧ (after (.statusRead ⟨3, 1, []⟩) s).link = s.link := by decide +kernel

theorem test_hold_resume :
    answer (.hold (frame [])) unit = [0, 2] ∧ (after (.hold (frame [])) unit).play.freeze = true
      ∧ answer (.resume (frame [])) (inState .held (fading dueEntries unit)) = [0, 1] := by decide +kernel

theorem test_goto_back :
    (after (.goto (frame [0, 9, 255, 255])) cued).play.state = .resolving ⟨9, 20, 0, false⟩
      ∧ answer (.goto (frame [0, 8, 0, 0])) cued = [6] ∧ answer (.back (frame [])) cued = [6] := by decide +kernel

/-- A lockout that has run out does not run again under a longer lockout time; one that runs goes on (R51). -/
theorem test_lockout_reconfigured :
    let config := Instr.playbackConfig (frame [7, 0xD0, 0, 20, 0, 20, 1])
    let locked := fun (elapsed : Nat) => { cued with play := { cued.play with lockout := some elapsed } }
    (after config (locked 300)).play.lockout = none ∧ (after config (locked 299)).play.lockout = some 299
      ∧ (after config (locked 299)).play.config.lockoutTime = 2000 := by decide +kernel

theorem test_resolution_completes :
    let t := after .resolutionCompletion (inState (.resolving ⟨5, 20, 0, false⟩) cued)
    t.play.state = .running ∧ t.play.current = 5 ∧ t.status.latched .resolveDone = true
      ∧ t.fade.entries = [⟨0, 0, 700, 2000, .linear, .running 0 0⟩] := by decide +kernel

theorem test_go_line :
    (after .goLinePress cued).play.current = 5 ∧ (after .goLinePress cued).play.goLine = .low
      ∧ (after .goLinePress unit).status.latched .goIgnored = true := by decide +kernel

theorem test_record_and_read :
    answer (.recordBegin (frame [0, 7, 1, 0, 30, 2, 255, 255])) unit = [0]
      ∧ answer (.recordEnd (frame [])) (drafting cueFive unit) = [0, 0, 1, 0x17, 0x6F]
      ∧ answer (.cueRead (frame [0, 5])) cued = [0, 0, 5, 0, 0, 30, 0, 0, 20, 1, 1, 65, 1]
      ∧ answer (.moveRead (frame [0, 5, 0])) cued = [0, 1, 1, 1, 2, 188, 255, 255, 255, 255, 255] := by decide +kernel

theorem test_live_and_delete :
    answer (.recordLive (frame [0, 1, 0])) unit = [0, 0, 1, 0x17, 0x20]
      ∧ answer (.cueDelete (frame [0, 5])) cued = [0, 0, 1, 0x17, 0x70] := by decide +kernel

theorem test_fades_end :
    let s := inState .running (fading dueEntries unit)
    (after (.fadeCompletion 1) s).fade.rest[(1 : Target)] = 1023
      ∧ (after (.delayExpiry 0) s).fade.entries[0]? = some ⟨0, 5, 700, 3000, .linear, .running 0 0⟩
      ∧ (after (.delayExpiry 2) s).fade.rest[(2 : Target)] = 1 := by decide +kernel

theorem test_touch :
    holding.own.owners[(0 : Target)] = .operator 0 ∧ effective holding 0 = 512
      ∧ (holding.surface.motorQueue.map fun m => m.words[(0 : Strip)]) = [.leave]
      ∧ (after (.surfaceReport 2 (Vector.replicate 16 0)) holding).own.owners[(0 : Target)] = .glide 512 500 0
      ∧ (after (.surfaceReport 1 (touchOne 512)) unit).own.strips[(0 : Strip)] = ⟨.blocked, 512⟩ := by decide +kernel

theorem test_surface_loss :
    let t := after .surfaceLoss { holding with surface := { holding.surface with silence := some 0 } }
    t.own.strips[(0 : Strip)] = ⟨.idle, 512⟩ ∧ t.own.owners[(0 : Target)] = .glide 512 500 0
      ∧ t.status.latched .surfaceLost = true ∧ t.status.latched .stateChanged = true := by decide +kernel

theorem test_park :
    let t := after (.park (frame [1, 3, 255, 0, 0])) holding
    t.own.owners[(0 : Target)] = .parked 1023 512 0 0 ∧ t.own.strips[(0 : Strip)] = ⟨.blocked, 512⟩
      ∧ effective t 0 = 1023 ∧ answer (.unpark (frame [1])) holding = [16]
      ∧ answer (.targetRead (frame [65])) unit = [0, 0, 0, 3, 0, 3, 0, 3, 0, 3, 0, 0, 0, 0, 0, 0, 0, 0] := by
  decide +kernel

theorem test_assignments :
    answer (.bankAssign (frame [0, 2, 1])) surfaced = [14] ∧ answer (.pageSelect (frame [3])) unit = [0, 3]
      ∧ answer (.surfaceConfig (frame [0, 1, 0x20, 0])) unit = [0, 0, 30, 0x13, 0x88]
      ∧ answer (.groupAssign (frame [1, 2, 16, 3, 9])) unit = [0, 2, 3, 16, 0]
      ∧ answer (.groupAssign (frame [1, 2, 3, 3, 9])) unit = [14] := by decide +kernel

theorem test_mutes :
    (after (.muteSet (frame [1, 1])) unit).mute.ramps[(0 : Channel)] = .muting 0 20 false 0
      ∧ answer (.muteConfig (frame [1, 0, 0, 30, 0, 0])) unit = [0, 0, 200, 0, 30, 0, 0]
      ∧ answer (.stopSet (frame [])) unit = [0, 1, 1] ∧ (after .stopLineFall unit).play.state = .held
      ∧ (after (.exemptSet (frame [2, 1])) (after .stopLineFall unit)).mute.ramps[(1 : Channel)] = .opened := by
  decide +kernel

theorem test_ramp_arrival :
    let s := { unit with mute := { flagged with ramps := flagged.ramps.set 0 (.muting 0 20 false 20) } }
    (after (.rampArrival 0) s).mute.ramps[(0 : Channel)] = .muted := by decide +kernel

theorem test_windows :
    answer (.windowSet (frame [0, 1, 64, 64, 1])) unit = [0, 64, 64]
      ∧ answer (.windowSet (frame [1, 2, 2, 0, 0])) (mapped 0 ⟨1, 1, 0, false⟩ unit) = [15, 0]
      ∧ answer (.windowClear (frame [8])) unit = [13] ∧ answer (.outputConfig (frame [5, 0])) unit = [0, 5, 0] := by
  decide +kernel

theorem test_output_period :
    let t := after .outputPeriodExpiry { unit with clock := 2 }
    t.out.counter = 1 ∧ t.out.next = some 4 ∧ t.out.gainOut.map (·.counter) = some 0 := by decide +kernel

theorem test_supervision :
    answer (.heartbeat (frame [0x40])) (supervised .degraded 3 125) = [0, 0, 2, 2, 2]
      ∧ answer (.heartbeat (frame [0x40])) (supervised .degraded 3 124) = [0, 1, 1, 4, 3]
      ∧ (after .windowExpiry (supervised .linked 0 500)).sup.link = .degraded
      ∧ answer (.reclaim (frame []))
          { supervised .lost 4 0 with sup := { (supervised .lost 4 0).sup with localMode := true } } = [18] := by
  decide +kernel

theorem test_supervision_config :
    answer (.supervisionConfig (frame [1, 1, 0xF4, 4, 2, 0, 9, 0, 20, 0xA0, 0x2C])) unit = [0]
      ∧ (after (.supervisionConfig (frame [1, 1, 0xF4, 4, 2, 0, 9, 0, 20, 0xA0, 0x2C])) unit).sup.question = 0x2C
      ∧ expectedAnswer 0x2C 0xA0 = 0xB7 := by decide +kernel

theorem test_status :
    answer (.statusRead (frame [])) cued = [0, 0, 0, 0, 0, 0, 0, 0, 0, 0, 5, 0, 0, 0]
      ∧ answer (.statusClear (frame [0x20, 0])) unit = [13] ∧ answer (.addressMaskSet (frame [3])) unit = [0, 3]
      ∧ answer (.addressMaskSet (frame [32])) unit = [13] := by decide +kernel

theorem test_attention :
    attnLine unit = .released ∧ attnLine (latch .frameError unit) = .low
      ∧ attnLine (latch .frameError { unit with status := { unit.status with mode := .pulse } }) = .pulsing := by
  decide +kernel

theorem test_answer_sent :
    let s := after (.hold (frame [])) unit
    slde (after .answerSend s) = .high ∧ (after .answerSent (after .answerSend s)).link.port = .hunt
      ∧ (after (.readbackCollision 0 0 false) (after .answerSend s)).link.collisions = 1
      ∧ (after (.answerPendingCollision 0xA5 false) s).link.port = .receive [] := by decide +kernel

theorem test_show_reset :
    let t := after (.showReset (frame [])) (after (.go (frame [0, 0])) cued)
    t.play.state = .standby ∧ t.play.current = 0 ∧ t.play.standby = some ⟨5, false⟩ ∧ t.fade.entries = []
      ∧ t.play.lockout = some 0 := by decide +kernel

theorem test_full_reset :
    let s := after .fullReset cued
    attnLine s = .released ∧ (after (.hold (frame [])) s).play.state = .standby
      ∧ (after (.fullResetEnd 17 .low .low) s).link.address = 17
      ∧ (after (.fullResetEnd 17 .low .low) s).play.state = .held
      ∧ (after (.fullResetEnd 17 .low .high) s).play.state = .standby := by decide +kernel

theorem test_idle_step_advances_the_clock :
    ∃ t, step unit = .next t ∧ t.clock = 1 := by
  have h : forcedEvents unit = [] := by decide +kernel
  refine ⟨_, rfl, ?_⟩
  unfold idle
  rw [h]; rfl

end Sys2Proof.Tests
end

/-! The position blend (R5): the distance it moves from its from-position, and what follows for the blend. -/

namespace Sys2Proof.Machine

/-- The distance a blend over `d` positions moves from its from-position, rounded to nearest (R5). -/
def blendDistance (d n : Nat) : Nat :=
  (d * n + 2048) / 4096

theorem blendDistance_zero (d : Nat) : blendDistance d 0 = 0 := by
  simp [blendDistance]

theorem blendDistance_full (d : Nat) : blendDistance d 4096 = d := by
  unfold blendDistance; omega

theorem blendDistance_mono (d : Nat) {n k : Nat} (h : n ≤ k) : blendDistance d n ≤ blendDistance d k :=
  Nat.div_le_div_right (Nat.add_le_add_right (Nat.mul_le_mul_left d h) 2048)

theorem blendDistance_le {n : Nat} (d : Nat) (h : n ≤ 4096) : blendDistance d n ≤ d :=
  calc blendDistance d n ≤ blendDistance d 4096 := blendDistance_mono d h
    _ = d := blendDistance_full d

/-- The rounding of R5 keeps 0 at 0, so the sign of a product that is not negative makes no difference to it. -/
theorem sign_mul_rounded (m : Nat) :
    (m : Int).sign * (((m + 2048) / 4096 : Nat) : Int) = (((m + 2048) / 4096 : Nat) : Int) := by
  rcases Nat.eq_zero_or_pos m with rfl | hm
  · rfl
  · rw [Int.sign_eq_one_of_pos (Int.natCast_pos.mpr hm), Int.one_mul]

theorem blend_rising {a b : Nat} (h : a ≤ b) (n : Nat) : blend a b n = a + blendDistance (b - a) n :=
  if_pos h

theorem blend_falling {a b : Nat} (h : b < a) (n : Nat) : blend a b n = a - blendDistance (a - b) n :=
  if_neg (Nat.not_le.mpr h)

/-- The model's two branches are R5's one formula over the integers, ties away from zero. -/
theorem blend_eq_signed {a b n : Nat} (hn : n ≤ 4096) :
    (blend a b n : Int) = a + (((b : Int) - a) * n).sign
      * ((((((b : Int) - a) * n).natAbs + 2048) / 4096 : Nat) : Int) := by
  rcases Nat.lt_or_ge b a with h | h
  · have hd : ((b : Int) - a) * n = -(((a - b) * n : Nat) : Int) := by
      rw [Int.natCast_mul, Int.natCast_sub (Nat.le_of_lt h), ← Int.neg_mul, Int.neg_sub]
    have hle : blendDistance (a - b) n ≤ a := Nat.le_trans (blendDistance_le _ hn) (Nat.sub_le a b)
    rw [hd, Int.sign_neg, Int.natAbs_neg, Int.natAbs_natCast, Int.neg_mul, sign_mul_rounded, blend_falling h,
      Int.natCast_sub hle, Int.sub_eq_add_neg, blendDistance]
  · have hd : ((b : Int) - a) * n = (((b - a) * n : Nat) : Int) := by
      rw [Int.natCast_mul, Int.natCast_sub h]
    rw [hd, Int.natAbs_natCast, sign_mul_rounded, blend_rising h, Int.natCast_add, blendDistance]

theorem blend_zero (a b : Nat) : blend a b 0 = a := by
  rcases Nat.lt_or_ge b a with h | h
  · rw [blend_falling h, blendDistance_zero, Nat.sub_zero]
  · rw [blend_rising h, blendDistance_zero, Nat.add_zero]

theorem blend_full (a b : Nat) : blend a b 4096 = b := by
  rcases Nat.lt_or_ge b a with h | h
  · rw [blend_falling h, blendDistance_full]; omega
  · rw [blend_rising h, blendDistance_full]; omega

theorem blend_mono_of_rising {a b n k : Nat} (h : a ≤ b) (hk : n ≤ k) : blend a b n ≤ blend a b k := by
  rw [blend_rising h, blend_rising h]
  exact Nat.add_le_add_left (blendDistance_mono _ hk) a

theorem blend_anti_of_falling {a b n k : Nat} (h : b < a) (hk : n ≤ k) : blend a b k ≤ blend a b n := by
  rw [blend_falling h, blend_falling h]
  exact Nat.sub_le_sub_left (blendDistance_mono _ hk) a

/-- A blend lies between its ends, since it moves in one direction from the one to the other. -/
theorem blend_bounds {n : Nat} (a b : Nat) (hn : n ≤ 4096) : min a b ≤ blend a b n ∧ blend a b n ≤ max a b := by
  have h0 := blend_zero a b
  have hfull := blend_full a b
  rcases Nat.lt_or_ge b a with h | h
  · have hlow := blend_anti_of_falling h hn
    have hhigh := blend_anti_of_falling h n.zero_le
    omega
  · have hlow := blend_mono_of_rising h n.zero_le
    have hhigh := blend_mono_of_rising h hn
    omega

/-! ### The three uses -/

theorem value?_of_running {e : FadeEntry} {start elapsed : Nat} (h : e.phase = .running start elapsed) :
    e.value? = some (blend start e.goal (shape e.curve (fraction elapsed e.duration))) := by
  simp only [FadeEntry.value?, h]

theorem rampValue_of_lt {elapsed duration : Nat} (position start : Nat) (h : elapsed < duration) :
    rampValue position start duration elapsed = blend start position (fraction elapsed duration) :=
  if_pos h

theorem effective_of_glide {s : State} {t : Target} {release time elapsed : Nat}
    (h : s.own.owners[t] = .glide release time elapsed) :
    effective s t = blend release (s.fade.automation t) (fraction elapsed time) := by
  simp only [effective, h]

/-- Settles O30, from the distance a blend moves: it is 0 at 0, the whole distance at 4096, and never falls. -/
theorem blendIsExact : Obligations.BlendIsExact := by
  refine ⟨fun a b n _ _ hn => ?_, fun _ _ _ h => value?_of_running h, fun position start _ _ h =>
    rampValue_of_lt position start h, fun _ _ _ _ _ h => effective_of_glide h⟩
  obtain ⟨hmin, hmax⟩ := blend_bounds a b hn
  exact ⟨blend_eq_signed hn, blend_zero a b, blend_full a b, hmin, hmax,
    fun _ hk _ => ⟨fun h => blend_mono_of_rising h hk, fun h => blend_anti_of_falling h hk⟩⟩

end Sys2Proof.Machine

/-! RECORD BEGIN and RECORD ABANDON (R26, R32), each outcome of their own checks, and how a show order's own checks
and effect become the command's answer. -/

namespace Sys2Proof.Machine

open Sys2Proof.Safety

/-! ### From a show order's body to its answer -/

section ShowOrder

variable {i : Instr} {kind : Byte} {f : OrderFrame} {s t : State} {n : Nat} {data : List Byte} {reason : Reason}
  {body : List Byte → State → OrderResult}

/-- A show order of the right length outside LOCAL mode meets its own checks alone (R160, R174). -/
theorem judgeOrder_showOrder {p : List Byte} (hl : p.length = n) (hm : s.sup.localMode = false) :
    judgeOrder (showOrder n body) p s = body p s :=
  judgeOrder_body (beq_iff_eq.mpr hl) hm

theorem takenAs_showOrder (ho : i.order? = some (kind, f)) (hs : orderSpec kind = some (showOrder n body))
    (hl : f.payload.length = n) (h48 : n ≤ 48) (hm : s.sup.localMode = false)
    (hb : body f.payload s = .done data t) : TakenAs i kind f s data t :=
  takenAs ho hs (Nat.le_trans (Nat.le_of_eq hl) h48) rfl ((judgeOrder_showOrder hl hm).trans hb)

theorem refusedAs_showOrder (ho : i.order? = some (kind, f)) (hs : orderSpec kind = some (showOrder n body))
    (hl : f.payload.length = n) (h48 : n ≤ 48) (hm : s.sup.localMode = false) (hne : reason ≠ .endOfCues)
    (hb : body f.payload s = .refuse reason data) : RefusedAs i kind f s reason data :=
  refusedAs ho hs (Nat.le_trans (Nat.le_of_eq hl) h48) rfl hne ((judgeOrder_showOrder hl hm).trans hb)

end ShowOrder

/-! ### The codes that name no cue kind and no curve -/

theorem kindOf_eq_none {k : Nat} (h : 1 < k) : kindOf k = none :=
  match k, h with
  | _ + 2, _ => rfl

theorem curveOf_eq_none {k : Nat} (h : 3 < k) : curveOf k = none :=
  match k, h with
  | _ + 4, _ => rfl

/-! ### The outcomes of RECORD BEGIN and RECORD ABANDON -/

section Body

variable {p : List Byte} {s : State}

theorem recordBeginBody_editOpen (h : s.cues.edit ≠ none) : recordBeginBody p s = .refuse .editOpen [] :=
  if_pos (Option.isSome_iff_ne_none.mpr h)

theorem recordBeginBody_range (h : s.cues.edit = none)
    (hr : (wordAt p 0 = 0 ∨ Config.maxCue < wordAt p 0) ∨ kindOf (byteAt p 2) = none ∨ curveOf (byteAt p 5) = none) :
    recordBeginBody p s = .refuse .range [] := by
  unfold recordBeginBody
  rw [h, if_neg (by simp)]
  split
  next => rfl
  next hnumber =>
    rcases hr.resolve_left hnumber with hkind | hcurve
    · rw [hkind]
    · rw [hcurve]; cases kindOf (byteAt p 2) <;> rfl

theorem recordBeginBody_opens (h : s.cues.edit = none) (hlow : 1 ≤ wordAt p 0) (hhigh : wordAt p 0 ≤ Config.maxCue)
    {kind : CueKind} {curve : Curve} (hkind : kindOf (byteAt p 2) = some kind)
    (hcurve : curveOf (byteAt p 5) = some curve) :
    recordBeginBody p s = .done [] (setEdit (some
      { number := wordAt p 0, kind := kind, defaultFade := clampTenths (wordAt p 3), defaultCurve := curve
        followWait := timeField (wordAt p 6), moves := [], actions := [] }) s) := by
  unfold recordBeginBody
  rw [h, if_neg (by simp), if_neg (by omega), hkind, hcurve]

theorem recordAbandonBody_noEdit (h : s.cues.edit = none) : recordAbandonBody p s = .refuse .noEdit [] := by
  unfold recordAbandonBody; rw [h]

theorem recordAbandonBody_closes {draft : CueRecord} (h : s.cues.edit = some draft) :
    recordAbandonBody p s = .done [] (setEdit none s) := by
  unfold recordAbandonBody; rw [h]

end Body

/-! ### The two orders -/

/-- RECORD BEGIN on a closed buffer refuses a number, a kind or a curve out of range (R26). -/
theorem recordBegin_range {f : OrderFrame} {s : State} (hl : f.payload.length = 8)
    (hm : s.sup.localMode = false) (h : s.cues.edit = none)
    (hr : wordAt f.payload 0 = 0 ∨ 60000 < wordAt f.payload 0 ∨ 1 < byteAt f.payload 2 ∨ 3 < byteAt f.payload 5) :
    RefusedAs (.recordBegin f) 0x20 f s .range [] := by
  refine refusedAs_showOrder rfl rfl hl (by decide) hm (by decide) (recordBeginBody_range h ?_)
  rcases hr with hzero | hbig | hkind | hcurve
  · exact .inl (.inl hzero)
  · exact .inl (.inr hbig)
  · exact .inr (.inl (kindOf_eq_none hkind))
  · exact .inr (.inr (curveOf_eq_none hcurve))

/-- Settles O21, from the outcomes of the two orders' own checks. -/
theorem bufferOpensAndCloses : Obligations.BufferOpensAndCloses := by
  refine ⟨fun f s hl hm => ⟨fun hopen => ?_, recordBegin_range hl hm, fun kind curve h hlow hhigh hkind hcurve => ?_⟩,
    fun f s hp hm => ⟨fun h => ?_, fun draft h => ⟨?_, rfl⟩⟩⟩
  · exact refusedAs_showOrder rfl rfl hl (by decide) hm (by decide) (recordBeginBody_editOpen hopen)
  · exact takenAs_showOrder rfl rfl hl (by decide) hm (recordBeginBody_opens h hlow hhigh hkind hcurve)
  · exact refusedAs_showOrder rfl rfl (List.length_eq_zero_iff.mpr hp) (by decide) hm (by decide)
      (recordAbandonBody_noEdit h)
  · exact takenAs_showOrder rfl rfl (List.length_eq_zero_iff.mpr hp) (by decide) hm (recordAbandonBody_closes h)

end Sys2Proof.Machine

/-! HOLD and RESUME (R55, R56): what each gives in every playback state, the refusal that LOCAL mode gives any show
order, and what the freeze does to one passing millisecond. -/

namespace Sys2Proof.Machine

open Sys2Proof.Safety

section HoldResume

variable {i : Instr} {kind : Byte} {f : OrderFrame} {p : List Byte} {s t : State} {n : Nat} {code : Byte}
  {r : Resolution} {body : List Byte → State → OrderResult}

/-! ### LOCAL mode -/

/-- In LOCAL mode a show order of the right length does not reach its own checks (R160, R174). -/
theorem judgeOrder_showOrder_localMode (hl : p.length = n) (hm : s.sup.localMode = true) :
    judgeOrder (showOrder n body) p s = .refuse .localMode [] := by
  have hlength : (showOrder n body).lengthOk p.length = true := beq_iff_eq.mpr hl
  unfold judgeOrder
  rw [hlength, hm]; rfl

theorem refusedAs_showOrder_localMode (ho : i.order? = some (kind, f)) (hs : orderSpec kind = some (showOrder n body))
    (hl : f.payload.length = n) (h48 : n ≤ 48) (hm : s.sup.localMode = true) :
    RefusedAs i kind f s .localMode [] :=
  refusedAs ho hs (Nat.le_trans (Nat.le_of_eq hl) h48) rfl (by decide) (judgeOrder_showOrder_localMode hl hm)

/-! ### A hold in each playback state -/

theorem actHold_of_unheld (h : s.play.state = .standby ∨ s.play.state = .running) :
    actHold s = { s with play := { s.play with state := .held, freeze := true } } := by
  unfold actHold
  rcases h with h | h <;> rw [h]

theorem actHold_of_held (h : s.play.state = .held) : actHold s = s := by
  unfold actHold; rw [h]

theorem actHold_of_resolving (h : s.play.state = .resolving r) :
    actHold s = { s with play := { s.play with state := .resolving { r with holdRequested := true } } } := by
  unfold actHold; rw [h]

/-- HOLD, outside LOCAL mode, is taken as the hold it asks for, and answers the playback state that gives (R55). -/
theorem hold_taken (hp : f.payload = []) (hm : s.sup.localMode = false) (ht : actHold s = t)
    (hc : t.play.state.code = code) : TakenAs (.hold f) 0x11 f s [code] t := by
  subst ht hc
  exact takenAs_showOrder rfl rfl (List.length_eq_zero_iff.mpr hp) (by decide) hm rfl

/-! ### A release in each playback state -/

/-- Out of HELD the state follows the fade table (R42, R56). -/
theorem actResume_of_held (h : s.play.state = .held) :
    actResume s = { s with play := { s.play with
      state := if s.fade.entries.isEmpty then .standby else .running, freeze := false } } := by
  unfold actResume; rw [h]; rfl

theorem actResume_of_resolving (h : s.play.state = .resolving r) :
    actResume s = { s with play := { s.play with
      state := .resolving { r with holdRequested := false }, freeze := false } } := by
  unfold actResume; rw [h]

theorem actResume_of_unheld (h : s.play.state = .standby ∨ s.play.state = .running) : actResume s = s := by
  unfold actResume
  rcases h with h | h <;> rw [h]

/-- RESUME, outside LOCAL mode, is taken as the release it asks for, and answers the playback state that gives (R56). -/
theorem resume_taken (hp : f.payload = []) (hm : s.sup.localMode = false) (ht : actResume s = t)
    (hc : t.play.state.code = code) : TakenAs (.resume f) 0x12 f s [code] t := by
  subst ht hc
  exact takenAs_showOrder rfl rfl (List.length_eq_zero_iff.mpr hp) (by decide) hm rfl

/-! ### GO while held -/

theorem checkGo_of_held {expected : Nat} (h : s.play.state = .held) : checkGo expected s = .error .held := by
  unfold checkGo; rw [h]

theorem goBody_of_held (h : s.play.state = .held) : goBody p s = .refuse .held [] := by
  unfold goBody; rw [checkGo_of_held h]; rfl

/-! ### One millisecond under the freeze and without it -/

theorem FadeEngine.tick_frozen (u : FadeEngine) : u.tick true = u := if_pos rfl

theorem FadeEngine.tick_free (u : FadeEngine) :
    u.tick false = { u with entries := u.entries.map FadeEntry.tick } := if_neg (by decide)

theorem advance_fade_of_frozen (h : s.play.freeze = true) : (advance s).fade = s.fade :=
  (congrArg (FadeEngine.tick · s.fade) h).trans s.fade.tick_frozen

theorem advance_follow_of_frozen (h : s.play.freeze = true) : (advance s).play.follow = s.play.follow :=
  if_pos h

theorem advance_fade_of_free (h : s.play.freeze = false) :
    (advance s).fade = { s.fade with entries := s.fade.entries.map FadeEntry.tick } :=
  (congrArg (FadeEngine.tick · s.fade) h).trans s.fade.tick_free

theorem advance_follow_of_free (h : s.play.freeze = false) :
    (advance s).play.follow = s.play.follow.map (· - 1) :=
  if_neg (Bool.eq_false_iff.mp h)

end HoldResume

/-! ### The two orders -/

/-- Settles O15, from the hold in each playback state, GO's first check and the millisecond under the freeze. -/
theorem holdTaken : Obligations.HoldTaken := by
  intro f s hp
  refine ⟨fun hlocal => ?localMode, fun hm => ⟨fun h => ?unheld, fun h => ?held, fun r h => ?resolving⟩,
    fun hfreeze => ⟨advance_fade_of_frozen hfreeze, advance_follow_of_frozen hfreeze⟩, fun g hl hm h => ?go⟩
  case localMode =>
    exact refusedAs_showOrder_localMode rfl rfl (List.length_eq_zero_iff.mpr hp) (by decide) hlocal
  case unheld => exact hold_taken hp hm (actHold_of_unheld h) rfl
  case held => exact hold_taken hp hm (actHold_of_held h) (congrArg PlayState.code h)
  case resolving => exact hold_taken hp hm (actHold_of_resolving h) rfl
  case go => exact refusedAs_showOrder rfl rfl hl (by decide) hm (by decide) (goBody_of_held h)

/-- Settles O16, from the release in each playback state and the millisecond without the freeze. -/
theorem resumeTaken : Obligations.ResumeTaken := by
  intro f s hp
  refine ⟨fun hlocal => ?localMode,
    fun hm => ⟨fun h => ?held, fun r h => ?resolving, fun h => ?standby, fun h => ?running⟩,
    fun hfreeze => ⟨advance_fade_of_free hfreeze, advance_follow_of_free hfreeze⟩⟩
  case localMode =>
    exact refusedAs_showOrder_localMode rfl rfl (List.length_eq_zero_iff.mpr hp) (by decide) hlocal
  case held => exact resume_taken hp hm (actResume_of_held h) (apply_ite PlayState.code _ _ _)
  case resolving => exact resume_taken hp hm (actResume_of_resolving h) rfl
  case standby => exact resume_taken hp hm (actResume_of_unheld (.inl h)) (congrArg PlayState.code h)
  case running => exact resume_taken hp hm (actResume_of_unheld (.inr h)) (congrArg PlayState.code h)

end Sys2Proof.Machine

/-! The fraction of a duration and the four curves (R86, R87): each curve's ends, its direction and its place about
LINEAR. -/

namespace Sys2Proof.Machine

/-! ### The fraction (R86) -/

theorem fraction_mono {e e' : Nat} (d : Nat) (h : e ≤ e') : fraction e d ≤ fraction e' d :=
  Nat.div_le_div_right (Nat.mul_le_mul_left 4096 h)

theorem fraction_zero (d : Nat) : fraction 0 d = 0 :=
  Nat.zero_div d

theorem fraction_self {d : Nat} (h : 1 ≤ d) : fraction d d = 4096 :=
  Nat.mul_div_cancel 4096 h

theorem fraction_le {e d : Nat} (hd : 1 ≤ d) (h : e ≤ d) : fraction e d ≤ 4096 :=
  calc fraction e d ≤ fraction d d := fraction_mono d h
    _ = 4096 := fraction_self hd

/-! ### SLOW, and FAST as its mirror image -/

theorem shape_slow_mono {f g : Nat} (h : f ≤ g) : shape .slow f ≤ shape .slow g :=
  Nat.div_le_div_right (Nat.pow_le_pow_left h 2)

theorem shape_slow_le {f : Nat} (h : f ≤ 4096) : shape .slow f ≤ f :=
  Nat.div_le_of_le_mul <| calc
    f ^ 2 = f * f := Nat.pow_two f
    _ ≤ 4096 * f := Nat.mul_le_mul_right f h

theorem shape_fast_eq_mirror (f : Nat) : shape .fast f = 4096 - shape .slow (4096 - f) := rfl

theorem shape_fast_mono {f g : Nat} (h : f ≤ g) : shape .fast f ≤ shape .fast g :=
  Nat.sub_le_sub_left (shape_slow_mono (Nat.sub_le_sub_left h 4096)) 4096

theorem le_shape_fast {f : Nat} (h : f ≤ 4096) : f ≤ shape .fast f := by
  have hslow : shape .slow (4096 - f) ≤ 4096 - f := shape_slow_le (Nat.sub_le 4096 f)
  rw [shape_fast_eq_mirror]; omega

/-! ### S -/

/-- The numerator of the curve S over 4096², as a product. -/
def sNumerator (f : Nat) : Nat :=
  f * f * (12288 - 2 * f)

theorem shape_s_eq (f : Nat) : shape .s f = sNumerator f / 16777216 := by
  have hsquare : f ^ 2 = f * f := Nat.pow_two f
  have hcube : f ^ 3 = f * f * f := (Nat.pow_succ f 2).trans (congrArg (· * f) hsquare)
  have hproduct : 3 * f ^ 2 * 4096 - 2 * f ^ 3 = sNumerator f := by
    rw [hsquare, hcube, sNumerator, Nat.mul_sub, Nat.mul_left_comm (f * f) 2 f]; omega
  exact congrArg (· / 16777216) hproduct

theorem sNumerator_cast {f : Nat} (h : f ≤ 4096) : (sNumerator f : Int) = f * f * (12288 - 2 * f) := by
  rw [sNumerator, Int.natCast_mul, Int.natCast_mul, Int.natCast_sub (by omega), Int.natCast_mul]; rfl

/-- How far S lies below LINEAR, over 4096²: above 0 before the middle, below 0 after it, and 0 at both ends. -/
theorem sNumerator_gap {f : Nat} (h : f ≤ 4096) :
    16777216 * (f : Int) - sNumerator f = 2 * f * ((2048 - f) * (4096 - f)) := by
  rw [sNumerator_cast h]; grind

theorem sNumerator_rise {f g : Nat} (h : f ≤ g) (hg : g ≤ 4096) :
    (sNumerator g : Int) - sNumerator f = (g - f) * (6 * f * (4096 - g) + 2 * (g - f) * (6144 - (g - f))) := by
  rw [sNumerator_cast hg, sNumerator_cast (Nat.le_trans h hg)]; grind

/-- No factor of the rise is negative up to 4096. -/
theorem sNumerator_mono {f g : Nat} (h : f ≤ g) (hg : g ≤ 4096) : sNumerator f ≤ sNumerator g := by
  have hlow : (0 : Int) ≤ 6 * f * (4096 - g) := Int.mul_nonneg (by omega) (by omega)
  have hfar : (0 : Int) ≤ 2 * (g - f) * (6144 - (g - f)) := Int.mul_nonneg (by omega) (by omega)
  have hrise : (0 : Int) ≤ (g - f) * (6 * f * (4096 - g) + 2 * (g - f) * (6144 - (g - f))) :=
    Int.mul_nonneg (by omega) (Int.add_nonneg hlow hfar)
  rw [← sNumerator_rise h hg] at hrise
  omega

theorem shape_s_mono {f g : Nat} (h : f ≤ g) (hg : g ≤ 4096) : shape .s f ≤ shape .s g := by
  rw [shape_s_eq, shape_s_eq]
  exact Nat.div_le_div_right (sNumerator_mono h hg)

theorem shape_s_le {f : Nat} (h : f < 2048) : shape .s f ≤ f := by
  have hgap := sNumerator_gap (f := f) (by omega)
  have hsign : (0 : Int) ≤ 2 * f * ((2048 - f) * (4096 - f)) :=
    Int.mul_nonneg (by omega) (Int.mul_nonneg (by omega) (by omega))
  rw [← hgap] at hsign
  rw [shape_s_eq]
  exact Nat.div_le_of_le_mul (by omega)

theorem le_shape_s {f : Nat} (h : 2048 < f) (hf : f ≤ 4096) : f ≤ shape .s f := by
  have hgap := sNumerator_gap hf
  have hsign : 2 * f * ((2048 - f) * (4096 - f)) ≤ (0 : Int) :=
    Int.mul_nonpos_of_nonneg_of_nonpos (by omega) (Int.mul_nonpos_of_nonpos_of_nonneg (by omega) (by omega))
  rw [← hgap] at hsign
  rw [shape_s_eq, Nat.le_div_iff_mul_le (by decide)]
  omega

/-! ### What every curve has: its ends, its direction and its range -/

theorem shape_zero (c : Curve) : shape c 0 = 0 := by
  cases c <;> rfl

theorem shape_full (c : Curve) : shape c 4096 = 4096 := by
  cases c <;> rfl

theorem shape_mono (c : Curve) {f g : Nat} (h : f ≤ g) (hg : g ≤ 4096) : shape c f ≤ shape c g := by
  cases c with
  | linear => exact h
  | slow => exact shape_slow_mono h
  | fast => exact shape_fast_mono h
  | s => exact shape_s_mono h hg

theorem shape_le (c : Curve) {f : Nat} (h : f ≤ 4096) : shape c f ≤ 4096 :=
  calc shape c f ≤ shape c 4096 := shape_mono c h (Nat.le_refl 4096)
    _ = 4096 := shape_full c

/-! ### The statement -/

/-- Settles O31, from the fraction's and the curves' direction, their ends, and the place of each curve about LINEAR. -/
theorem fractionAndCurvesAreExact : Obligations.FractionAndCurvesAreExact := by
  refine ⟨⟨fun e d hd he => ⟨rfl, fraction_le hd he, fraction_zero d, fraction_self hd, fun _ => fraction_mono d⟩, rfl⟩,
    fun f hf => ⟨rfl, rfl, rfl, rfl, shape_slow_le hf, le_shape_fast hf, shape_fast_eq_mirror f, shape_s_le,
      fun h => le_shape_s h hf, fun c => ⟨shape_le c hf, fun _ => shape_mono c⟩⟩,
    fun c => ⟨shape_zero c, shape_full c⟩, ?quarters⟩
  case quarters => decide

end Sys2Proof.Machine

/-! RECLAIM (R175): each outcome of its own checks, and how the checks and effect of an order that LOCAL mode accepts
become the command's answer. -/

namespace Sys2Proof.Machine

open Sys2Proof.Safety

/-! ### From an open order's body to its answer -/

section OpenOrder

variable {i : Instr} {kind : Byte} {f : OrderFrame} {s t : State} {n : Nat} {data : List Byte} {reason : Reason}
  {body : List Byte → State → OrderResult}

/-- An open order of the right length meets its own checks alone, in LOCAL mode too (R160, R174). -/
theorem judgeOrder_openOrder {p : List Byte} (hl : p.length = n) : judgeOrder (openOrder n body) p s = body p s :=
  judgeOrder_open (beq_iff_eq.mpr hl) rfl

theorem takenAs_openOrder (ho : i.order? = some (kind, f)) (hs : orderSpec kind = some (openOrder n body))
    (hl : f.payload.length = n) (h48 : n ≤ 48) (hb : body f.payload s = .done data t) :
    TakenAs i kind f s data t :=
  takenAs ho hs (Nat.le_trans (Nat.le_of_eq hl) h48) rfl ((judgeOrder_openOrder hl).trans hb)

theorem refusedAs_openOrder (ho : i.order? = some (kind, f)) (hs : orderSpec kind = some (openOrder n body))
    (hl : f.payload.length = n) (h48 : n ≤ 48) (hne : reason ≠ .endOfCues)
    (hb : body f.payload s = .refuse reason data) : RefusedAs i kind f s reason data :=
  refusedAs ho hs (Nat.le_trans (Nat.le_of_eq hl) h48) rfl hne ((judgeOrder_openOrder hl).trans hb)

end OpenOrder

/-! ### The outcomes of RECLAIM -/

section Reclaim

variable {p : List Byte} {s : State}

theorem reclaimBody_linked (hm : s.sup.localMode = true) (hlink : s.sup.link = .linked) :
    reclaimBody p s = .done [] (setLocal false s) := by
  unfold reclaimBody; rw [if_neg (ne_false_of_eq_true hm), if_pos hlink]

theorem reclaimBody_notLinked (hm : s.sup.localMode = true) (hlink : s.sup.link ≠ .linked) :
    reclaimBody p s = .refuse .notLinked [] := by
  unfold reclaimBody; rw [if_neg (ne_false_of_eq_true hm), if_neg hlink]

theorem reclaimBody_notLocal (hm : s.sup.localMode = false) : reclaimBody p s = .done [] s :=
  if_pos hm

end Reclaim

/-! ### The order -/

/-- Settles O50, from the outcomes of RECLAIM's own checks, which LOCAL mode lets it reach. -/
theorem reclaimTaken : Obligations.ReclaimTaken := by
  intro f s hp
  have hl : f.payload.length = 0 := List.length_eq_zero_iff.mpr hp
  refine ⟨fun hm hlink => ?linked, fun hm hlink => ?notLinked, fun hm => ?notLocal⟩
  case linked => exact takenAs_openOrder rfl rfl hl (by decide) (reclaimBody_linked hm hlink)
  case notLinked =>
    have hnot : s.sup.link ≠ .linked := by rcases hlink with h | h <;> rw [h] <;> decide
    exact refusedAs_openOrder rfl rfl hl (by decide) (by decide) (reclaimBody_notLinked hm hnot)
  case notLocal => exact takenAs_openOrder rfl rfl hl (by decide) (reclaimBody_notLocal hm)

end Sys2Proof.Machine

/-! What each shared effect of the orders and events leaves unchanged: the state it gives, written as the state before
with the blocks it changes. -/

namespace Sys2Proof.Machine

theorem fire_frame (r : CueRecord) (s : State) :
    fire r s = { s with
      fade := (fire r s).fade, mute := (fire r s).mute, play := (fire r s).play, status := (fire r s).status } := by
  unfold fire
  rw [fireMoves_eq r s]
  rfl

theorem takeGo_eq (r : CueRecord) (s : State) :
    takeGo r s = { s with
      fade := (fire r s).fade, mute := (fire r s).mute, play := { (fire r s).play with lockout := some 0 }
      status := (fire r s).status } := by
  unfold takeGo
  rw [fire_frame r s]

theorem actHold_frame (s : State) : actHold s = { s with play := (actHold s).play } := by
  unfold actHold
  split <;> rfl

theorem actResume_frame (s : State) : actResume s = { s with play := (actResume s).play } := by
  unfold actResume
  split <;> rfl

theorem changeStop_frame (change : MuteUnit → MuteUnit) (s : State) :
    changeStop change s = { s with
      mute := reevaluate s.mute (change s.mute), play := (changeStop change s).play } := by
  rw [changeStop_eq]
  split
  · rw [actHold_frame]
  · rfl

theorem lossAction_frame (s : State) :
    lossAction s = { s with
      play := (lossAction s).play, sup := (lossAction s).sup, status := (lossAction s).status } := by
  unfold lossAction
  split
  · rfl
  · rfl
  · split <;> rfl

/-- The link state found again, nothing latched or run for it. -/
def withLink (link : LinkState) (s : State) : State :=
  { s with sup := { s.sup with link := link } }

/-- The link state that R172 finds from the counter, T and the state before. -/
def foundLink (s : State) : LinkState :=
  linkAfter s.sup.counter s.sup.config.threshold s.sup.link

theorem relink_of_same {s : State} (h : foundLink s = s.sup.link) : relink s = s :=
  if_pos h

theorem relink_of_linked {s : State} (hl : foundLink s = .linked) (hne : s.sup.link ≠ .linked) :
    relink s = withLink .linked s := by
  have hchange : foundLink s ≠ s.sup.link := fun h => hne (h.symm.trans hl)
  refine (if_neg hchange).trans ?_
  change (match foundLink s with | .lost => _ | .degraded => _ | .linked => withLink (foundLink s) s | .off => _) = _
  rw [hl]

theorem relink_of_degraded {s : State} (hl : foundLink s = .degraded) (hne : s.sup.link ≠ .degraded) :
    relink s = latch .linkDegraded (withLink .degraded s) := by
  have hchange : foundLink s ≠ s.sup.link := fun h => hne (h.symm.trans hl)
  refine (if_neg hchange).trans ?_
  change (match foundLink s with
    | .lost => _ | .degraded => latch .linkDegraded (withLink (foundLink s) s) | .linked => _ | .off => _) = _
  rw [hl]

theorem relink_of_lost {s : State} (hl : foundLink s = .lost) (hne : s.sup.link ≠ .lost) :
    relink s = lossAction (latch .linkLost (withLink .lost s)) := by
  have hchange : foundLink s ≠ s.sup.link := fun h => hne (h.symm.trans hl)
  refine (if_neg hchange).trans ?_
  change (match foundLink s with
    | .lost => lossAction (latch .linkLost (withLink (foundLink s) s)) | .degraded => _ | .linked => _ | .off => _) = _
  rw [hl]

theorem foundLink_ne_off (s : State) : foundLink s ≠ .off := by
  unfold foundLink linkAfter
  split
  · decide
  · split
    · decide
    · split <;> decide

/-- The link state found again stays, or it becomes LINKED, DEGRADED or LOST (R172). -/
theorem relink_cases (s : State) :
    (foundLink s = s.sup.link ∧ relink s = s)
      ∨ (foundLink s = .linked ∧ relink s = withLink .linked s)
      ∨ (foundLink s = .degraded ∧ relink s = latch .linkDegraded (withLink .degraded s))
      ∨ (foundLink s = .lost ∧ relink s = lossAction (latch .linkLost (withLink .lost s))) := by
  by_cases hsame : foundLink s = s.sup.link
  · exact .inl ⟨hsame, relink_of_same hsame⟩
  · cases hl : foundLink s with
    | off => exact absurd hl (foundLink_ne_off s)
    | linked => exact .inr (.inl ⟨rfl, relink_of_linked hl fun h => hsame (hl.trans h.symm)⟩)
    | degraded => exact .inr (.inr (.inl ⟨rfl, relink_of_degraded hl fun h => hsame (hl.trans h.symm)⟩))
    | lost => exact .inr (.inr (.inr ⟨rfl, relink_of_lost hl fun h => hsame (hl.trans h.symm)⟩))

theorem relink_frame (s : State) :
    relink s = { s with play := (relink s).play, sup := (relink s).sup, status := (relink s).status } := by
  rcases relink_cases s with ⟨_, h⟩ | ⟨_, h⟩ | ⟨_, h⟩ | ⟨_, h⟩ <;> rw [h]
  · rfl
  · rfl
  · rw [lossAction_frame]
    rfl

theorem leaveResolving_frame (hold : Bool) (s : State) :
    leaveResolving hold s = { s with play := (leaveResolving hold s).play } := by
  unfold leaveResolving
  split <;> rfl

theorem completeResolution_eq (r : Resolution) (s : State) :
    completeResolution r s = { s with
      fade := s.fade.resolveAll s.out.windows (walkFrom s.cues.table r.goal) r.gotoTime
      mute := s.mute.handOver (walkFrom s.cues.table r.goal)
      play := (completeResolution r s).play
      status := s.status.record .resolveDone } := by
  unfold completeResolution
  rw [leaveResolving_frame]
  rfl

theorem configureSupervision_frame (c : SupervisionConfig) (s : State) :
    configureSupervision c s = { s with
      play := (configureSupervision c s).play, sup := (configureSupervision c s).sup
      status := (configureSupervision c s).status } := by
  unfold configureSupervision
  split
  · rfl
  · rw [relink_frame]
  · rfl
  · rfl

end Sys2Proof.Machine

/-! What a taken order can do, said once: for each kind of section 9.7, the blocks its body changes and what its own
checks have made sure of. -/

namespace Sys2Proof.Machine

open Sys2Proof.Safety

/-- What an order of a kind does once its own checks have passed. -/
inductive OrderChange : Byte → State → State → Prop
  | go {s r expected} : checkGo expected s = .ok r → OrderChange 0x10 s { s with
      fade := (fire r s).fade, mute := (fire r s).mute, play := { (fire r s).play with lockout := some 0 }
      status := (fire r s).status }
  | hold {s} : OrderChange 0x11 s { s with play := (actHold s).play }
  | resume {s} : OrderChange 0x12 s { s with play := (actResume s).play }
  | goto {s goal time} : s.play.state.isResolving = false → isStored s.cues.table goal = true →
      OrderChange 0x13 s { s with play := { s.play with
        follow := none, state := .resolving ⟨goal, time, s.clock, false⟩ } }
  | back {s goal} : s.play.state.isResolving = false → lastBefore s.cues.table s.play.current = some goal →
      OrderChange 0x14 s { s with play := { s.play with
        follow := none, state := .resolving ⟨goal, s.play.config.backTime, s.clock, false⟩ } }
  | standbySet {s n} : isStored s.cues.table n = true →
      OrderChange 0x15 s { s with play := { s.play with standby := some { number := n, explicit := true } } }
  | stopSet {s} : OrderChange 0x16 s { s with
      mute := reevaluate s.mute { s.mute with stopFlag := true }, play := (setStopFlag true s).play }
  | stopRelease {s} : OrderChange 0x17 s { s with
      mute := reevaluate s.mute { s.mute with stopFlag := false }, play := (setStopFlag false s).play }
  | showReset {s} : OrderChange 0x18 s { s with
      cues := { s.cues with edit := none }
      play := { s.play.showReset with standby := computedStandby s.cues.table 0 }
      fade := s.fade.showReset, own := s.own.showReset, mute := s.mute.showReset
      status := s.status.showReset (decide (present s ≠ present (clearShow s))) }
  | recordBegin {s} {d : CueRecord} : 1 ≤ d.number → d.number ≤ Config.maxCue → d.moves = [] → d.actions = [] →
      OrderChange 0x20 s { s with cues := { s.cues with edit := some d } }
  | moveAdd {s d p moves} : s.cues.edit = some d → movesOf p = some moves →
      (applyMoves moves d.moves).length ≤ Config.draftMoves →
      OrderChange 0x21 s { s with cues := { s.cues with edit := some { d with moves := applyMoves moves d.moves } } }
  | muteActionAdd {s d actions} : s.cues.edit = some d →
      (applyDraftActions actions d.actions).length ≤ Config.draftActions →
      OrderChange 0x22 s { s with cues := { s.cues with
        edit := some { d with actions := applyDraftActions actions d.actions } } }
  | recordEnd {s d} : s.cues.edit = some d → s.play.state.isResolving = false →
      capacityRefusal s.cues d.number d.moves.length = none →
      OrderChange 0x23 s { s with
        cues := { s.cues.commit d with edit := none }
        play := { s.play with standby := standbyOver (s.cues.commit d).table s.play } }
  | recordAbandon {s} : OrderChange 0x24 s { s with cues := { s.cues with edit := none } }
  | recordLive {s n kind} : s.play.state.isResolving = false → 1 ≤ n → n ≤ Config.maxCue →
      capacityRefusal s.cues n (liveRecord n kind s).moves.length = none →
      OrderChange 0x25 s { s with
        cues := s.cues.commit (liveRecord n kind s)
        play := { s.play with standby := standbyOver (s.cues.commit (liveRecord n kind s)).table s.play } }
  | cueDelete {s n} : s.play.state.isResolving = false →
      OrderChange 0x26 s { s with
        cues := s.cues.delete n
        play := { s.play with standby := standbyOver (s.cues.delete n).table s.play } }
  | cueRead {s} : OrderChange 0x27 s s
  | moveRead {s} : OrderChange 0x28 s s
  | tableInfo {s} : OrderChange 0x29 s s
  | baseSet {s} {t : Target} {n} :
      OrderChange 0x30 s { s with fade := { s.fade with base := s.fade.base.set t (clampPosition n) } }
  | park {s t n time} : OrderChange 0x31 s { s with own := (parkTarget t (clampPosition n) time s).own }
  | unpark {s} {t : Target} {position start duration elapsed} :
      s.own.owners[t] = .parked position start duration elapsed →
      OrderChange 0x32 s { s with own := s.own.letGo t (rampValue position start duration elapsed) }
  | targetRead {s} : OrderChange 0x33 s s
  | groupAssign {s groups} {c : Channel} : groups.length ≤ 3 → hasRepeat groups = false →
      OrderChange 0x34 s { s with mute := { s.mute with groups := s.mute.groups.set c (ascendingGroups groups) } }
  | muteSet {s subject state} :
      OrderChange 0x35 s { s with mute := reevaluate s.mute (s.mute.setSubject subject state) }
  | muteGroupAssign {s set} {c : Channel} : OrderChange 0x36 s { s with
      mute := reevaluate s.mute { s.mute with muteSets := s.mute.muteSets.set c set } }
  | exemptSet {s member} {c : Channel} : OrderChange 0x37 s { s with
      mute := reevaluate s.mute { s.mute with exempt := s.mute.exempt.set c member } }
  | muteConfig {s times} : OrderChange 0x38 s { s with mute := { s.mute with times := times } }
  | bankAssign {s entry} {page : Fin 4} {strip : Strip} : entry.any (onOtherStrip s.own.bank page strip) = false →
      OrderChange 0x40 s { s with own := { s.own with
        bank := s.own.bank.set page (s.own.bank[page].set strip entry) } }
  | pageSelect {s page} : OrderChange 0x41 s { s with own := { s.own with page := page } }
  | surfaceConfig {s stuck glide} : OrderChange 0x42 s { s with own := { s.own with
      stuckTime := stuck, glideTime := glide
      strips := Vector.ofFn fun i : Strip => s.own.strips[i].retime s.own.stuckTime stuck } }
  | windowSet {s w} {n : Fin 8} : WindowLegal w → clashSlot (s.out.windows.set n (some w)) = none →
      OrderChange 0x50 s { s with out := { s.out with windows := s.out.windows.set n (some w) } }
  | windowClear {s} {n : Fin 8} : clashSlot (s.out.windows.set n none) = none →
      OrderChange 0x51 s { s with out := { s.out with windows := s.out.windows.set n none } }
  | outputConfig {s period enable next} : OrderChange 0x52 s { s with out := { s.out with
      period := period, enabled := enable, next := next } }
  | heartbeatDisabled {s} : OrderChange 0x60 s s
  | heartbeat {s v u} : s.sup.window.isSome = true → u = { s with sup := (s.sup.afterVerdict v).newWindow } →
      OrderChange 0x60 s { s with play := (relink u).play, sup := (relink u).sup, status := (relink u).status }
  | supervisionConfig {s c} : 1 ≤ c.threshold → OrderChange 0x61 s { s with
      play := (configureSupervision c s).play, sup := (configureSupervision c s).sup
      status := (configureSupervision c s).status }
  | reclaim {s} : OrderChange 0x62 s s
  | reclaimLinked {s} : OrderChange 0x62 s { s with sup := { s.sup with localMode := false } }
  | statusRead {s} : OrderChange 0x70 s s
  | statusReadClears {s events} : OrderChange 0x70 s { s with status := s.status.clear events }
  | statusClear {s events} : OrderChange 0x71 s { s with status := s.status.clear events }
  | statusMask {s events} : OrderChange 0x72 s { s with status := { s.status with mask := events } }
  | attentionConfig {s mode policy} :
      OrderChange 0x73 s { s with status := { s.status.setMode mode with policy := policy } }
  | addressMaskSet {s mask} : OrderChange 0x74 s { s with link := { s.link with mask := mask } }
  | playbackConfig {s config} :
      OrderChange 0x75 s { s with play := { s.play with lockout := s.play.lockoutKept, config := config } }

section Bodies

variable {p data : List Byte} {s t : State}

theorem goBody_change (h : goBody p s = .done data t) : OrderChange 0x10 s t := by
  unfold goBody at h
  split at h
  next => cases h
  next r hr => cases h; rw [takeGo_eq]; exact .go hr

theorem holdBody_change (h : holdBody p s = .done data t) : OrderChange 0x11 s t := by
  cases h; rw [actHold_frame]; exact .hold

theorem resumeBody_change (h : resumeBody p s = .done data t) : OrderChange 0x12 s t := by
  cases h; rw [actResume_frame]; exact .resume

theorem gotoBody_change (h : gotoBody p s = .done data t) : OrderChange 0x13 s t := by
  unfold gotoBody at h
  split at h
  next => cases h
  next hbusy =>
    split at h
    next => cases h
    next hstored => cases h; exact .goto (Bool.eq_false_iff.mpr hbusy) (Bool.of_not_eq_false hstored)

theorem backBody_change (h : backBody p s = .done data t) : OrderChange 0x14 s t := by
  unfold backBody at h
  split at h
  next => cases h
  next hbusy =>
    split at h
    next => cases h
    next goal hgoal => cases h; exact .back (Bool.eq_false_iff.mpr hbusy) hgoal

theorem standbySetBody_change (h : standbySetBody p s = .done data t) : OrderChange 0x15 s t := by
  unfold standbySetBody at h
  split at h
  next => cases h
  next =>
    split at h
    next => cases h
    next hstored => cases h; exact .standbySet (Bool.of_not_eq_false hstored)

theorem stopSetBody_change (h : stopSetBody p s = .done data t) : OrderChange 0x16 s t := by
  cases h; unfold setStopFlag; rw [changeStop_frame]; exact .stopSet

theorem stopReleaseBody_change (h : stopReleaseBody p s = .done data t) : OrderChange 0x17 s t := by
  cases h; unfold setStopFlag; rw [changeStop_frame]; exact .stopRelease

theorem showResetBody_change (h : showResetBody p s = .done data t) : OrderChange 0x18 s t := by
  cases h; exact .showReset

theorem recordBeginBody_change (h : recordBeginBody p s = .done data t) : OrderChange 0x20 s t := by
  unfold recordBeginBody at h
  split at h
  next => cases h
  next =>
    split at h
    next => cases h
    next hnumber =>
      split at h
      next =>
        cases h
        refine .recordBegin ?_ ?_ rfl rfl
        · exact Nat.one_le_iff_ne_zero.mpr fun h0 => hnumber (.inl h0)
        · exact Nat.le_of_not_lt fun hbig => hnumber (.inr hbig)
      next => cases h

theorem moveAddBody_change (h : moveAddBody p s = .done data t) : OrderChange 0x21 s t := by
  unfold moveAddBody at h
  split at h
  next => cases h
  next draft hdraft =>
    split at h
    next => cases h
    next moves hmoves =>
      split at h
      next => cases h
      next hlimit => cases h; exact .moveAdd hdraft hmoves (Nat.le_of_not_lt hlimit)

theorem muteActionAddBody_change (h : muteActionAddBody p s = .done data t) : OrderChange 0x22 s t := by
  unfold muteActionAddBody at h
  split at h
  next => cases h
  next draft hdraft =>
    split at h
    next => cases h
    next actions _ =>
      split at h
      next => cases h
      next hlimit => cases h; exact .muteActionAdd hdraft (Nat.le_of_not_lt hlimit)

theorem recordEndBody_change (h : recordEndBody p s = .done data t) : OrderChange 0x23 s t := by
  unfold recordEndBody at h
  split at h
  next => cases h
  next draft hdraft =>
    split at h
    next => cases h
    next hbusy =>
      split at h
      next => cases h
      next hroom =>
        cases h
        rw [standbyAfterEdit_eq]
        exact .recordEnd hdraft (Bool.eq_false_iff.mpr hbusy) hroom

theorem recordAbandonBody_change (h : recordAbandonBody p s = .done data t) : OrderChange 0x24 s t := by
  unfold recordAbandonBody at h
  split at h
  next => cases h
  next => cases h; exact .recordAbandon

theorem recordLiveBody_change (h : recordLiveBody p s = .done data t) : OrderChange 0x25 s t := by
  unfold recordLiveBody at h
  split at h
  next => cases h
  next =>
    split at h
    next => cases h
    next hbusy =>
      split at h
      next => cases h
      next kind _ =>
        split at h
        next => cases h
        next hnumber =>
          split at h
          next => cases h
          next hroom =>
            cases h
            rw [standbyAfterEdit_eq]
            refine .recordLive (Bool.eq_false_iff.mpr hbusy) ?_ ?_ hroom
            · exact Nat.one_le_iff_ne_zero.mpr fun h0 => hnumber (.inl h0)
            · exact Nat.le_of_not_lt fun hbig => hnumber (.inr hbig)

theorem cueDeleteBody_change (h : cueDeleteBody p s = .done data t) : OrderChange 0x26 s t := by
  unfold cueDeleteBody at h
  split at h
  next => cases h
  next hbusy =>
    split at h
    next => cases h
    next => cases h; rw [standbyAfterEdit_eq]; exact .cueDelete (Bool.eq_false_iff.mpr hbusy)

theorem cueReadBody_change (h : cueReadBody p s = .done data t) : OrderChange 0x27 s t := by
  unfold cueReadBody at h
  split at h
  next => cases h
  next => cases h; exact .cueRead

theorem moveReadBody_change (h : moveReadBody p s = .done data t) : OrderChange 0x28 s t := by
  unfold moveReadBody at h
  split at h
  next => cases h
  next => cases h; exact .moveRead

theorem tableInfoBody_change (h : tableInfoBody p s = .done data t) : OrderChange 0x29 s t := by
  cases h; exact .tableInfo

theorem baseSetBody_change (h : baseSetBody p s = .done data t) : OrderChange 0x30 s t := by
  unfold baseSetBody at h
  split at h
  next => cases h
  next => cases h; exact .baseSet

theorem parkBody_change (h : parkBody p s = .done data t) : OrderChange 0x31 s t := by
  unfold parkBody at h
  split at h
  next => cases h
  next => cases h; exact .park

theorem unparkBody_change (h : unparkBody p s = .done data t) : OrderChange 0x32 s t := by
  unfold unparkBody at h
  split at h
  next => cases h
  next =>
    split at h
    next hparked => cases h; exact .unpark hparked
    all_goals cases h

theorem targetReadBody_change (h : targetReadBody p s = .done data t) : OrderChange 0x33 s t := by
  unfold targetReadBody at h
  split at h
  next => cases h
  next => cases h; exact .targetRead

/-- The entries of a list all of whose entries are present are as many as its places. -/
theorem allPresent_length {α : Type} {l : List (Option α)} {l' : List α} (h : allPresent l = some l') :
    l'.length = l.length := by
  induction l generalizing l' with
  | nil => cases h; rfl
  | cons a rest ih =>
    cases a with
    | none => cases h
    | some a =>
      obtain ⟨rest', hrest, rfl⟩ := Option.map_eq_some_iff.mp h
      exact congrArg (· + 1) (ih hrest)

theorem groupAssignBody_change (h : groupAssignBody p s = .done data t) : OrderChange 0x34 s t := by
  unfold groupAssignBody at h
  split at h
  next => cases h
  next =>
    split at h
    next => cases h
    next hcount =>
      split at h
      next => cases h
      next groups hgroups =>
        split at h
        next => cases h
        next hrepeat =>
          cases h
          refine .groupAssign ?_ (Bool.eq_false_iff.mpr hrepeat)
          rw [allPresent_length hgroups, List.length_map, List.length_range]
          exact Nat.le_of_not_lt hcount

theorem muteSetBody_change (h : muteSetBody p s = .done data t) : OrderChange 0x35 s t := by
  unfold muteSetBody at h
  split at h
  next => cases h; exact .muteSet
  next => cases h

theorem muteGroupAssignBody_change (h : muteGroupAssignBody p s = .done data t) : OrderChange 0x36 s t := by
  unfold muteGroupAssignBody at h
  split at h
  next => cases h
  next => cases h; exact .muteGroupAssign

theorem exemptSetBody_change (h : exemptSetBody p s = .done data t) : OrderChange 0x37 s t := by
  unfold exemptSetBody at h
  split at h
  next => cases h; exact .exemptSet
  next => cases h

theorem muteConfigBody_change (h : muteConfigBody p s = .done data t) : OrderChange 0x38 s t := by
  cases h; exact .muteConfig

theorem bankAssignBody_change (h : bankAssignBody p s = .done data t) : OrderChange 0x40 s t := by
  unfold bankAssignBody at h
  split at h
  next =>
    split at h
    next => cases h
    next hfree => cases h; exact .bankAssign (Bool.eq_false_iff.mpr hfree)
  next => cases h

theorem pageSelectBody_change (h : pageSelectBody p s = .done data t) : OrderChange 0x41 s t := by
  unfold pageSelectBody at h
  split at h
  next => cases h
  next => cases h; exact .pageSelect

theorem surfaceConfigBody_change (h : surfaceConfigBody p s = .done data t) : OrderChange 0x42 s t := by
  cases h; exact .surfaceConfig

theorem oneBased_bounds {n k : Nat} {x : Fin n} (h : oneBased n k = some x) : 1 ≤ k ∧ k ≤ n := by
  unfold oneBased at h
  split at h
  next hk => exact hk
  next => cases h

/-- The fields of WINDOW SET that are in range make a legal window (R143, R146). -/
theorem windowFields_legal {w : Window} (h : windowFields p = some w) : WindowLegal w := by
  unfold windowFields at h
  split at h
  next hfirst hlast _ =>
    split at h
    next => cases h
    next hrange =>
      cases h
      have hf := oneBased_bounds hfirst
      have hl := oneBased_bounds hlast
      simp only [not_or, Nat.not_lt] at hrange
      exact ⟨hf.1, hrange.1, hl.2, hrange.2.2⟩
  next => cases h

theorem windowSetBody_change (h : windowSetBody p s = .done data t) : OrderChange 0x50 s t := by
  unfold windowSetBody changeWindows at h
  split at h
  next hw =>
    split at h
    next => cases h
    next hclash => cases h; exact .windowSet (windowFields_legal hw) hclash
  next => cases h

theorem windowClearBody_change (h : windowClearBody p s = .done data t) : OrderChange 0x51 s t := by
  unfold windowClearBody changeWindows at h
  split at h
  next =>
    split at h
    next => cases h
    next hclash => cases h; exact .windowClear hclash
  next => cases h

theorem outputConfigBody_change (h : outputConfigBody p s = .done data t) : OrderChange 0x52 s t := by
  unfold outputConfigBody at h
  split at h
  next => cases h; exact .outputConfig
  next => cases h

theorem heartbeatBody_change (h : heartbeatBody p s = .done data t) : OrderChange 0x60 s t := by
  unfold heartbeatBody at h
  split at h
  next => cases h; exact .heartbeatDisabled
  next hw =>
    cases h
    rw [relink_frame]
    exact .heartbeat (Option.isSome_of_eq_some hw) rfl

theorem supervisionFields_threshold {c : SupervisionConfig} (h : supervisionFields p = some c) :
    1 ≤ c.threshold := by
  unfold supervisionFields at h
  split at h
  next =>
    split at h
    next hrange => cases h; simp only [Bool.and_eq_true, decide_eq_true_eq] at hrange; exact hrange.1.1.2
    next => cases h
  next => cases h

theorem supervisionConfigBody_change (h : supervisionConfigBody p s = .done data t) : OrderChange 0x61 s t := by
  unfold supervisionConfigBody at h
  split at h
  next => cases h
  next hc => cases h; rw [configureSupervision_frame]; exact .supervisionConfig (supervisionFields_threshold hc)

theorem reclaimBody_change (h : reclaimBody p s = .done data t) : OrderChange 0x62 s t := by
  unfold reclaimBody at h
  split at h
  next => cases h; exact .reclaim
  next =>
    split at h
    next => cases h; exact .reclaimLinked
    next => cases h

theorem statusReadBody_change (h : statusReadBody p s = .done data t) : OrderChange 0x70 s t := by
  unfold statusReadBody at h
  split at h
  next => cases h; exact .statusRead
  next => cases h; exact .statusReadClears

theorem statusClearBody_change (h : statusClearBody p s = .done data t) : OrderChange 0x71 s t := by
  unfold statusClearBody at h
  split at h
  next => cases h
  next => cases h; exact .statusClear

theorem statusMaskBody_change (h : statusMaskBody p s = .done data t) : OrderChange 0x72 s t := by
  unfold statusMaskBody at h
  split at h
  next => cases h
  next => cases h; exact .statusMask

theorem attentionConfigBody_change (h : attentionConfigBody p s = .done data t) : OrderChange 0x73 s t := by
  unfold attentionConfigBody at h
  split at h
  next => cases h; exact .attentionConfig
  next => cases h

theorem addressMaskSetBody_change (h : addressMaskSetBody p s = .done data t) : OrderChange 0x74 s t := by
  unfold addressMaskSetBody at h
  split at h
  next => cases h
  next => cases h; exact .addressMaskSet

theorem playbackConfigBody_change (h : playbackConfigBody p s = .done data t) : OrderChange 0x75 s t := by
  unfold playbackConfigBody at h
  split at h
  next => cases h
  next => cases h; exact .playbackConfig

end Bodies

/-- A taken order of a listed kind does what its kind does. -/
theorem order_change {kind : Byte} {o : OrderSpec} {p data : List Byte} {s t : State}
    (ho : orderSpec kind = some o) (h : o.body p s = .done data t) : OrderChange kind s t := by
  have code {k : Nat} (hk : k < 256) (hkind : kind.toNat = k) : kind = BitVec.ofNat 8 k :=
    BitVec.eq_of_toNat_eq (hkind.trans (Nat.mod_eq_of_lt hk).symm)
  unfold orderSpec at ho
  split at ho
  case h_44 => cases ho
  all_goals
    rename_i hkind
    obtain rfl := code (by decide) hkind
    cases ho
  · exact goBody_change h
  · exact holdBody_change (p := p) h
  · exact resumeBody_change (p := p) h
  · exact gotoBody_change h
  · exact backBody_change (p := p) h
  · exact standbySetBody_change h
  · exact stopSetBody_change (p := p) h
  · exact stopReleaseBody_change (p := p) h
  · exact showResetBody_change (p := p) h
  · exact recordBeginBody_change h
  · exact moveAddBody_change h
  · exact muteActionAddBody_change h
  · exact recordEndBody_change (p := p) h
  · exact recordAbandonBody_change (p := p) h
  · exact recordLiveBody_change h
  · exact cueDeleteBody_change h
  · exact cueReadBody_change h
  · exact moveReadBody_change h
  · exact tableInfoBody_change (p := p) h
  · exact baseSetBody_change h
  · exact parkBody_change h
  · exact unparkBody_change h
  · exact targetReadBody_change h
  · exact groupAssignBody_change h
  · exact muteSetBody_change h
  · exact muteGroupAssignBody_change h
  · exact exemptSetBody_change h
  · exact muteConfigBody_change (p := p) h
  · exact bankAssignBody_change h
  · exact pageSelectBody_change h
  · exact surfaceConfigBody_change (p := p) h
  · exact windowSetBody_change h
  · exact windowClearBody_change h
  · exact outputConfigBody_change h
  · exact heartbeatBody_change h
  · exact supervisionConfigBody_change h
  · exact reclaimBody_change (p := p) h
  · exact statusReadBody_change (p := p) h
  · exact statusClearBody_change h
  · exact statusMaskBody_change h
  · exact attentionConfigBody_change h
  · exact addressMaskSetBody_change h
  · exact playbackConfigBody_change h

end Sys2Proof.Machine

/-! What a change of any command outside the resets is made of, said once; a property that every such change keeps is
kept by the commands and, with the resets and the passing of time, by every step. -/

namespace Sys2Proof.Machine

open Sys2Proof.Safety

/-- One change of the part by a command outside the resets. -/
inductive Change : State → State → Prop
  | order {kind s t} : OrderChange kind s t → Change s t
  | port {s p} : Change s { s with link := { s.link with port := p } }
  | collided {s} : Change s (advanceCollisions s)
  | latched {s e} : Change s (latch e s)
  | receiver {s r} : Change s { s with surface := { s.surface with rx := r } }
  | report {s scan words} : Change s (actSurfaceReport scan words s)
  | goLine {s level} : Change s { s with play := { s.play with goLine := level } }
  | followStopped {s} : Change s { s with play := { s.play with follow := none } }
  | fired {s r} : standbyRecord s = some r → s.play.state = .standby ∨ s.play.state = .running → Change s { s with
      fade := (fire r s).fade, mute := (fire r s).mute, play := (fire r s).play, status := (fire r s).status }
  | lockoutEnded {s} : Change s { s with play := { s.play with lockout := none } }
  | fadeStarted {s t e} : s.fade.delayDue t = some e → Change s { s with fade := s.fade.startWaiting t }
  | snapped {s t e} : s.fade.delayDue t = some e →
      Change s (leftByCompletion e.owner ((s.fade.dropAll t).setRest t e.goal) s)
  | faded {s t e} : s.fade.completionDue t = some e →
      Change s (leftByCompletion e.owner ((s.fade.dropRunning t).setRest t e.goal) s)
  | resolved {s r} : s.play.state = .resolving r → Change s { s with
      fade := s.fade.resolveAll s.out.windows (walkFrom s.cues.table r.goal) r.gotoTime
      mute := s.mute.handOver (walkFrom s.cues.table r.goal)
      play := (completeResolution r s).play
      status := s.status.record .resolveDone }
  | motorFrame {s queue frame} :
      Change s { s with surface := { s.surface with motorQueue := queue, motorOut := frame } }
  | surfaceLost {s} : Change s { s with
      own := allStrips.foldl Ownership.touchFall s.own, surface := { s.surface with silence := none } }
  | stuck {s t k} {i : Strip} : s.own.strips[i].state = .touched t k →
      Change s { s with own := (s.own.letGo t s.own.strips[i].lastPosition).blockStrip i }
  | glideEnded {s t} : s.own.glideDue t = true → Change s { s with own := s.own.setOwner t .auto }
  | rampEnded {s} {c : Channel} : s.mute.ramps[c].arrived = true →
      Change s { s with mute := { s.mute with ramps := s.mute.ramps.set c s.mute.ramps[c].ended } }
  | stopLine {s level} : Change s { s with
      mute := reevaluate s.mute { s.mute with stopLine := level }, play := (setStopLine level s).play }
  | gainFrame {s frame counter next} :
      Change s { s with out := { s.out with gainOut := frame, counter := counter, next := next } }
  | windowEnded {s u} : s.sup.window.isSome = true → u = { s with sup := s.sup.countError.newWindow } →
      Change s { s with play := (relink u).play, sup := (relink u).sup, status := (relink u).status }
  | pulseEnded {s} : Change s { s with status := { s.status with pulses := s.status.pulses - 1 } }

/-- A GO that passes its checks finds a standby to fire, in STANDBY or RUNNING (R48). -/
theorem checkGo_ok {expected : Nat} {s : State} {r : CueRecord} (h : checkGo expected s = .ok r) :
    standbyRecord s = some r ∧ (s.play.state = .standby ∨ s.play.state = .running) := by
  unfold checkGo at h
  split at h
  case h_1 => cases h
  case h_2 => cases h
  all_goals
    rename_i hstate
    split at h
    next => cases h
    next hr =>
      split at h
      next => cases h
      next =>
        split at h
        next => cases h
        next => cases h; exact ⟨hr, by simp [hstate]⟩

theorem followDue_state {s : State} (h : followDue s = true) :
    s.play.state = .standby ∨ s.play.state = .running := by
  unfold followDue at h
  split at h
  next hstate => exact .inl hstate
  next hstate => exact .inr hstate
  next => cases h

section Keeping

variable {Inv : State → Prop} (k : ∀ {s t : State}, Change s t → Inv s → Inv t)
include k

theorem refused_of_change {reason : Reason} {s : State} (h : Inv s) : Inv (latchRefusal reason s) := by
  unfold latchRefusal
  split
  · exact k .latched h
  · exact h

theorem goLinePress_of_change {s : State} (h : Inv s) : Inv (actGoLinePress s) := by
  unfold actGoLinePress
  split
  next => exact h
  next =>
    have hfallen := k (.goLine (level := .low)) h
    split
    next =>
      dsimp only
      split
      next => exact k .latched (refused_of_change k hfallen)
      next hr => rw [takeGo_eq]; exact k (.order (.go hr)) hfallen
    next => exact hfallen

theorem followExpiry_of_change {s : State} (h : Inv s) : Inv (actFollowExpiry s) := by
  unfold actFollowExpiry
  split
  next hdue =>
    have hstopped := k .followStopped h
    have hstate := followDue_state hdue
    dsimp only
    split
    next => exact k .latched hstopped
    next hr => rw [fire_frame]; exact k (.fired hr hstate) hstopped
  next => exact h

theorem delayExpiry_of_change {t : Target} {s : State} (h : Inv s) : Inv (actDelayExpiry t s) := by
  unfold actDelayExpiry
  split
  next => exact h
  next hdue =>
    split
    next => exact k (.fadeStarted hdue) h
    next => rw [settle_recordCompletion]; exact k (.snapped hdue) h

theorem fadeCompletion_of_change {t : Target} {s : State} (h : Inv s) : Inv (actFadeCompletion t s) := by
  unfold actFadeCompletion
  split
  next => exact h
  next hdue => rw [settle_recordCompletion]; exact k (.faded hdue) h

theorem resolutionCompletion_of_change {s : State} (h : Inv s) : Inv (actResolutionCompletion s) := by
  unfold actResolutionCompletion
  split
  next hr => rw [completeResolution_eq]; exact k (.resolved hr) h
  all_goals exact h

theorem stuckTouchExpiry_of_change {i : Strip} {s : State} (h : Inv s) : Inv (actStuckTouchExpiry i s) := by
  unfold actStuckTouchExpiry
  split
  next ht => exact k .latched (k (.stuck ht) h)
  next => exact h

theorem motorFrameSend_of_change {s : State} (h : Inv s) : Inv (actMotorFrameSend s) := by
  unfold actMotorFrameSend
  split
  next => exact h
  next => exact k .motorFrame h

theorem windowExpiry_of_change {s : State} (h : Inv s) : Inv (actWindowExpiry s) := by
  unfold actWindowExpiry
  split
  next hdue =>
    have hw : s.sup.window.isSome = true := by
      unfold windowDue at hdue
      split at hdue
      next hw => exact Option.isSome_of_eq_some hw
      next => cases hdue
    rw [relink_frame]
    exact k (.windowEnded (s := s) hw rfl) h
  next => exact h

/-- A property that an expiry's act keeps is kept where the expiry is not due too. -/
theorem kept_if {c : Bool} {s t : State} (hc : c = true → Change s t) (h : Inv s) : Inv (if c then t else s) := by
  split
  next hdue => exact k (hc hdue) h
  next => exact h

/-- A property that every change keeps is kept by every command outside the resets. -/
theorem keeps_of_change : Keeps Inv where
  port _ _ h := k .port h
  collided _ h := k .collided h
  latched _ _ h := k .latched h
  taken _ _ _ _ _ _ ho h hb := k (.order (order_change ho hb)) h
  receiver _ _ h := k .receiver h
  report _ _ _ h := k .report h
  goLinePress _ h := goLinePress_of_change k h
  goLineRise _ h := k .goLine h
  followExpiry _ h := followExpiry_of_change k h
  lockoutExpiry _ h := kept_if k (fun _ => .lockoutEnded) h
  delayExpiry _ _ h := delayExpiry_of_change k h
  fadeCompletion _ _ h := fadeCompletion_of_change k h
  resolutionCompletion _ h := resolutionCompletion_of_change k h
  motorFrameSend _ h := motorFrameSend_of_change k h
  surfaceLoss s h := by
    unfold actSurfaceLoss
    split
    next => exact k .latched (k .surfaceLost h)
    next => exact h
  stuckTouchExpiry _ _ h := stuckTouchExpiry_of_change k h
  glideExpiry _ _ h := kept_if k .glideEnded h
  rampArrival _ _ h := kept_if k .rampEnded h
  stopLine _ _ h := by
    unfold setStopLine
    rw [changeStop_frame]
    exact k .stopLine h
  outputPeriodExpiry _ h := kept_if k (fun _ => .gainFrame) h
  windowExpiry _ h := windowExpiry_of_change k h
  attnPulse _ h := kept_if k (fun _ => .pulseEnded) h

/-- A property that every change, the passing of time and the resets keep is kept by every step. -/
theorem step_keeps (hqueued : ∀ s q, Inv s → Inv { s with pending := q })
    (hchosen : ∀ s n, Inv s → Inv { s with choices := n })
    (hpassed : ∀ s, forcedEvents s = [] → Inv s → Inv (advance s))
    (hheld : ∀ s, Inv (heldInReset s)) (hreleased : ∀ pins goLine s, Inv (releasedFromReset pins goLine s))
    {s t : State} (h : Inv s) (hs : step s = .next t) : Inv t :=
  KeepsSteps.step
    { keeps_of_change k with
      queued := hqueued, chosen := hchosen, millisecond := hpassed, held := fun s _ => hheld s
      released := fun pins goLine s _ => hreleased pins goLine s } h hs

end Keeping

/-! ### The order of one kind -/

section OneKind

variable {Inv : State → Prop} {kind : Byte}

/-- What an order of one kind leaves in place: a property kept by the port's changes, by the latch and by what a taken
order of the kind does holds after the order, in every state of the port. -/
theorem exec_order_keeps {i : Instr} {f : OrderFrame} {s t : State} (ho : i.order? = some (kind, f))
    (hport : ∀ s p, Inv s → Inv { s with link := { s.link with port := p } })
    (hcollided : ∀ s, Inv s → Inv (advanceCollisions s)) (hlatched : ∀ e s, Inv s → Inv (latch e s))
    (htaken : ∀ s t, OrderChange kind s t → Inv s → Inv t) (h : Inv s) (he : exec i s = .next t) : Inv t := by
  have hrefused : ∀ reason s, Inv s → Inv (latchRefusal reason s) := fun reason s h => by
    unfold latchRefusal
    split
    · exact hlatched _ _ h
    · exact h
  have hjudged : ∀ s data u, Inv s → judgeOrder ((orderSpec kind).getD unknownSpec) f.payload s = .done data u →
      Inv u := fun s data u h hj => by
    unfold judgeOrder at hj
    split at hj
    next => cases hj
    next =>
      split at hj
      next => cases hj
      next =>
        cases hspec : orderSpec kind with
        | none => rw [hspec] at hj; cases hj
        | some o => rw [hspec] at hj; exact htaken s u (order_change hspec hj) h
  have hframe : ∀ s, Inv s → Inv (completedFrame kind f s) := fun s h => by
    have hhunt := hport s .hunt h
    unfold completedFrame takeFrame
    split
    next => exact hlatched _ _ hhunt
    next =>
      split
      next => exact hhunt
      next =>
        unfold takeExact
        split
        next hj => exact hport _ _ (hjudged _ _ _ hhunt hj)
        next => exact hport _ _ (hrefused _ _ hhunt)
      next =>
        unfold takeMasked
        split
        next => exact hhunt
        next =>
          split
          next hj => exact hjudged _ _ _ hhunt hj
          next => exact hlatched _ _ (hrefused _ _ hhunt)
  have harrived : Inv (arrive (completedFrame kind f) s) := by
    unfold arrive
    split
    next => exact h
    next => exact hframe _ (hlatched _ _ (hcollided _ (hport _ _ h)))
    all_goals exact hframe _ h
  rw [exec_order ho] at he
  cases he
  split
  · exact h
  · rcases noteChanges_cases s (arrive (completedFrame kind f) s) with e | e <;> rw [e]
    · exact harrived
    · exact hlatched _ _ harrived

end OneKind

end Sys2Proof.Machine

/-! Entry into a list kept in the order of a key: the one shape of a move's, an action's and a record's entry into its
list (R22, R28, R29). -/

namespace Sys2Proof.Machine

section InsertByKey

variable {α : Type} (key : α → Nat)

/-- An element takes its key's place, replacing an element of the same key. -/
def insertByKey (a : α) : List α → List α
  | [] => [a]
  | x :: rest =>
    if key a < key x then a :: x :: rest
    else if key a = key x then a :: rest
    else x :: insertByKey a rest

variable {key}

theorem mem_of_mem_insertByKey {a x : α} {l : List α} (h : x ∈ insertByKey key a l) : x = a ∨ x ∈ l := by
  induction l with
  | nil => exact .inl (List.mem_singleton.mp h)
  | cons y rest ih =>
    unfold insertByKey at h
    split at h
    · exact List.mem_cons.mp h
    · split at h
      · exact (List.mem_cons.mp h).imp_right (List.mem_cons_of_mem y)
      · rcases List.mem_cons.mp h with rfl | hx
        · exact .inr List.mem_cons_self
        · exact (ih hx).imp_right (List.mem_cons_of_mem y)

theorem insertByKey_pairwise (a : α) {l : List α} (h : l.Pairwise fun x y => key x < key y) :
    (insertByKey key a l).Pairwise fun x y => key x < key y := by
  induction l with
  | nil => exact List.pairwise_singleton _ a
  | cons y rest ih =>
    obtain ⟨hy, hrest⟩ := List.pairwise_cons.mp h
    unfold insertByKey
    split
    next hlt =>
      refine List.pairwise_cons.mpr ⟨fun x hx => ?_, h⟩
      rcases List.mem_cons.mp hx with rfl | hx
      · exact hlt
      · exact Nat.lt_trans hlt (hy x hx)
    next hge =>
      split
      next heq => exact List.pairwise_cons.mpr ⟨fun x hx => heq ▸ hy x hx, hrest⟩
      next hne =>
        refine List.pairwise_cons.mpr ⟨fun x hx => ?_, ih hrest⟩
        rcases mem_of_mem_insertByKey hx with rfl | hx
        · omega
        · exact hy x hx

/-- What is found under a key: the element that entered with it, or else what the list had. -/
theorem find?_insertByKey (a : α) (l : List α) (n : Nat) :
    (insertByKey key a l).find? (fun x => decide (key x = n)) =
      if key a = n then some a else l.find? fun x => decide (key x = n) := by
  induction l with
  | nil => by_cases h : key a = n <;> simp [insertByKey, h]
  | cons y rest ih =>
    unfold insertByKey
    split
    next => by_cases h : key a = n <;> simp [h]
    next =>
      split
      next heq => by_cases h : key a = n <;> simp [h, ← heq]
      next hne =>
        rw [List.find?_cons, List.find?_cons, ih]
        by_cases hy : key y = n
        · simp [hy, show key a ≠ n from fun h => hne (h.trans hy.symm)]
        · simp [hy]

/-- Elements entering one after another leave the list in order. -/
theorem foldl_insertByKey_pairwise (as : List α) {l : List α} (h : l.Pairwise fun x y => key x < key y) :
    (as.foldl (fun acc a => insertByKey key a acc) l).Pairwise fun x y => key x < key y := by
  induction as generalizing l with
  | nil => exact h
  | cons a rest ih => exact ih (insertByKey_pairwise a h)

/-- What is found under a key after several elements entered: the last of them with it, or else what the list had. -/
theorem find?_foldl_insertByKey (as l : List α) (n : Nat) :
    (as.foldl (fun acc a => insertByKey key a acc) l).find? (fun x => decide (key x = n)) =
      (as.reverse.find? fun x => decide (key x = n)).or (l.find? fun x => decide (key x = n)) := by
  induction as generalizing l with
  | nil => rfl
  | cons a rest ih =>
    rw [List.foldl_cons, ih, find?_insertByKey, List.reverse_cons, List.find?_append, Option.or_assoc]
    congr 1
    by_cases h : key a = n <;> simp [h]

theorem mem_of_mem_foldl_insertByKey {as l : List α} {x : α}
    (h : x ∈ as.foldl (fun acc a => insertByKey key a acc) l) : x ∈ as ∨ x ∈ l := by
  induction as generalizing l with
  | nil => exact .inr h
  | cons a rest ih =>
    rcases ih h with hx | hx
    · exact .inl (List.mem_cons_of_mem a hx)
    · exact (mem_of_mem_insertByKey hx).imp_left fun e => List.mem_cons.mpr (.inl e)

end InsertByKey

/-! ### Moves, actions and records -/

theorem insertMove_eq (m : Move) (l : List Move) : insertMove m l = insertByKey (fun x => x.target.val) m l := by
  induction l with
  | nil => rfl
  | cons x rest ih => unfold insertMove insertByKey; simp only [Fin.lt_def, Fin.ext_iff, ih]

theorem insertAction_eq (a : MuteAction) (l : List MuteAction) :
    insertAction a l = insertByKey (fun x => x.subject.place) a l := by
  induction l with
  | nil => rfl
  | cons x rest ih => unfold insertAction insertByKey; simp only [ih]

theorem insertCue_eq (r : CueRecord) (table : List CueRecord) :
    insertCue r table = insertByKey (·.number) r table := by
  induction table with
  | nil => rfl
  | cons x rest ih => unfold insertCue insertByKey; simp only [ih]

theorem applyMoves_eq (moves into : List Move) :
    applyMoves moves into = moves.foldl (fun acc m => insertByKey (fun x => x.target.val) m acc) into := by
  simp only [applyMoves, insertMove_eq]

theorem applyDraftActions_eq (actions into : List MuteAction) :
    applyDraftActions actions into =
      actions.foldl (fun acc a => insertByKey (fun x => x.subject.place) a acc) into := by
  simp only [applyDraftActions, insertAction_eq]

theorem applyMoves_pairwise (moves : List Move) {into : List Move} (h : into.Pairwise fun a b => a.target < b.target) :
    (applyMoves moves into).Pairwise fun a b => a.target < b.target := by
  rw [applyMoves_eq]
  exact foldl_insertByKey_pairwise moves h

theorem applyDraftActions_pairwise (actions : List MuteAction) {into : List MuteAction}
    (h : into.Pairwise fun a b => a.subject.place < b.subject.place) :
    (applyDraftActions actions into).Pairwise fun a b => a.subject.place < b.subject.place := by
  rw [applyDraftActions_eq]
  exact foldl_insertByKey_pairwise actions h

/-- The places of the mute subjects in the order of R21 are distinct. -/
theorem place_inj {u v : MuteSubject} : u.place = v.place ↔ u = v := by
  refine ⟨fun h => ?_, fun h => h ▸ rfl⟩
  cases u with
  | group m =>
    cases v with
    | group n => exact congrArg _ (Fin.ext h)
    | channel c => simp only [MuteSubject.place] at h; omega
  | channel c =>
    cases v with
    | group n => simp only [MuteSubject.place] at h; omega
    | channel d => exact congrArg _ (Fin.ext (Nat.add_left_cancel h))

theorem find?_applyMoves (moves into : List Move) (t : Target) :
    (applyMoves moves into).find? (fun m => decide (m.target = t)) =
      (moves.reverse.find? fun m => decide (m.target = t)).or (into.find? fun m => decide (m.target = t)) := by
  simp only [applyMoves_eq, Fin.ext_iff]
  exact find?_foldl_insertByKey moves into t.val

theorem find?_applyDraftActions (actions into : List MuteAction) (u : MuteSubject) :
    (applyDraftActions actions into).find? (fun a => decide (a.subject = u)) =
      (actions.reverse.find? fun a => decide (a.subject = u)).or
        (into.find? fun a => decide (a.subject = u)) := by
  simp only [applyDraftActions_eq, ← place_inj]
  exact find?_foldl_insertByKey actions into u.place

theorem findCue_insertCue (r : CueRecord) (table : List CueRecord) (n : Nat) :
    findCue (insertCue r table) n = if r.number = n then some r else findCue table n := by
  rw [insertCue_eq]
  exact find?_insertByKey r table n

/-! ### The cue table's lookups (R22) -/

section Lookups

variable {table : List CueRecord}

theorem isStored_iff {n : Nat} : isStored table n = true ↔ ∃ r ∈ table, r.number = n := by
  simp [isStored, findCue]

theorem nextAfter_eq_none {n : Nat} : nextAfter table n = none ↔ ∀ r ∈ table, r.number ≤ n := by
  simp [nextAfter]

theorem lastBefore_eq_none {n : Nat} : lastBefore table n = none ↔ ∀ r ∈ table, n ≤ r.number := by
  simp [lastBefore]

/-- The cue next after a number is stored, the table ordered or not. -/
theorem isStored_nextAfter {n k : Nat} (h : nextAfter table n = some k) : isStored table k = true := by
  obtain ⟨r, hr, rfl⟩ := Option.map_eq_some_iff.mp h
  exact isStored_iff.mpr ⟨r, List.mem_of_find?_eq_some hr, rfl⟩

theorem isStored_lastBefore {n k : Nat} (h : lastBefore table n = some k) : isStored table k = true := by
  obtain ⟨r, hr, rfl⟩ := Option.map_eq_some_iff.mp h
  exact isStored_iff.mpr ⟨r, (List.mem_filter.mp (List.mem_of_getLast? hr)).1, rfl⟩

theorem mem_of_mem_insertCue {r x : CueRecord} (h : x ∈ insertCue r table) : x = r ∨ x ∈ table := by
  rw [insertCue_eq] at h
  exact mem_of_mem_insertByKey h

variable (h : table.Pairwise fun a b => a.number < b.number)
include h

theorem removeCue_length (n : Nat) :
    (removeCue n table).length = if isStored table n then table.length - 1 else table.length := by
  induction table with
  | nil => simp [removeCue]
  | cons c rest ih =>
    obtain ⟨hc, hrest⟩ := List.pairwise_cons.mp h
    by_cases hn : c.number = n
    · have hall : rest.filter (fun r => decide (r.number ≠ n)) = rest :=
        List.filter_eq_self.mpr fun r hr => decide_eq_true (by have := hc r hr; omega)
      have hstored : isStored (c :: rest) n = true := isStored_iff.mpr ⟨c, List.mem_cons_self, hn⟩
      rw [hstored, removeCue, List.filter_cons_of_neg (by simpa using hn), hall]
      rfl
    · have hcons : isStored (c :: rest) n = isStored rest n := by simp [isStored, findCue, hn]
      have ih := ih hrest
      unfold removeCue at ih
      rw [hcons, removeCue, List.filter_cons_of_pos (by simpa using hn), List.length_cons, ih]
      split
      next hs =>
        obtain ⟨r, hr, _⟩ := isStored_iff.mp hs
        have := List.length_pos_of_mem hr
        simp only [List.length_cons]
        omega
      next => rfl

/-- The moves held after a record entered: the old record's moves are back, the new record's are taken (R31, R23). -/
theorem movesHeld_insertCue (r : CueRecord) :
    movesHeld (insertCue r table) + movesOfCue table r.number = movesHeld table + r.moves.length := by
  induction table with
  | nil => simp [insertCue, movesHeld, movesOfCue, findCue]
  | cons c rest ih =>
    obtain ⟨hc, hrest⟩ := List.pairwise_cons.mp h
    unfold insertCue
    split
    next hlt =>
      have hnone : findCue (c :: rest) r.number = none := by
        simp only [findCue, List.find?_eq_none, decide_eq_true_eq]
        intro x hx
        rcases List.mem_cons.mp hx with rfl | hx
        · omega
        · have := hc x hx; omega
      rw [movesOfCue, hnone]
      simp only [movesHeld, List.map_cons, List.sum_cons]
      omega
    next =>
      split
      next heq =>
        have hfound : findCue (c :: rest) r.number = some c := by simp [findCue, heq]
        rw [movesOfCue, hfound]
        simp only [movesHeld, List.map_cons, List.sum_cons]
        omega
      next hne =>
        have hcons : movesOfCue (c :: rest) r.number = movesOfCue rest r.number := by
          simp [movesOfCue, findCue, show c.number ≠ r.number from fun e => hne e.symm]
        have ih := ih hrest
        rw [hcons]
        simp only [movesHeld, List.map_cons, List.sum_cons] at ih ⊢
        omega

/-- The moves held after a record left: its moves are back (R35, R23). -/
theorem movesHeld_removeCue (n : Nat) :
    movesHeld (removeCue n table) + movesOfCue table n = movesHeld table := by
  induction table with
  | nil => rfl
  | cons c rest ih =>
    obtain ⟨hc, hrest⟩ := List.pairwise_cons.mp h
    by_cases hn : c.number = n
    · have hall : rest.filter (fun r => decide (r.number ≠ n)) = rest :=
        List.filter_eq_self.mpr fun r hr => decide_eq_true (by have := hc r hr; omega)
      have hfound : findCue (c :: rest) n = some c := by simp [findCue, hn]
      rw [removeCue, List.filter_cons_of_neg (by simpa using hn), hall, movesOfCue, hfound]
      simp only [movesHeld, List.map_cons, List.sum_cons]
      omega
    · have hcons : movesOfCue (c :: rest) n = movesOfCue rest n := by simp [movesOfCue, findCue, hn]
      have ih := ih hrest
      unfold removeCue at ih
      rw [hcons, removeCue, List.filter_cons_of_pos (by simpa using hn)]
      simp only [movesHeld, List.map_cons, List.sum_cons] at ih ⊢
      omega

end Lookups

/-- Settles O20, from the lookups and changes of an ordered table. -/
theorem tableLookups : Obligations.TableLookups := by
  intro table h
  exact ⟨findCue_eq_some h, fun _ => isStored_iff, nextAfter_eq_some h, fun _ => nextAfter_eq_none,
    lastBefore_eq_some h, fun _ => lastBefore_eq_none,
    fun r => ⟨(insertCue_spec h r).1, fun _ => mem_insertCue h, (insertCue_spec h r).2⟩,
    fun n => ⟨rfl, removeCue_length h n⟩⟩

end Sys2Proof.Machine

/-! The codings of the manual's sections 9.6 to 9.8, as they are written and as they are read. -/

namespace Sys2Proof.Machine

/-! ### Reading a code -/

theorem oneBased_eq_some {n k : Nat} {x : Fin n} : oneBased n k = some x ↔ k = x.val + 1 := by
  unfold oneBased
  constructor
  · intro h
    split at h
    next hk => cases h; exact (Nat.sub_add_cancel hk.1).symm
    next => cases h
  · rintro rfl
    exact dif_pos ⟨Nat.le_add_left 1 x.val, x.isLt⟩

theorem oneBased_eq_none {n k : Nat} : oneBased n k = none ↔ k = 0 ∨ n < k := by
  unfold oneBased
  split
  next hk => exact ⟨nofun, by omega⟩
  next hk => exact ⟨fun _ => by omega, fun _ => rfl⟩

theorem pageOf_eq_some {k : Nat} {page : Fin 4} : pageOf k = some page ↔ k = page.val := by
  unfold pageOf
  split
  next => simp [Fin.ext_iff]
  next hk => exact ⟨nofun, by omega⟩

theorem pageOf_eq_none {k : Nat} : pageOf k = none ↔ 3 < k := by
  unfold pageOf
  split
  next hk => exact ⟨nofun, by omega⟩
  next hk => exact ⟨fun _ => by omega, fun _ => rfl⟩

theorem windowOf_eq_some {k : Nat} {n : Fin 8} : windowOf k = some n ↔ k = n.val := by
  unfold windowOf
  split
  next => simp [Fin.ext_iff]
  next hk => exact ⟨nofun, by omega⟩

theorem windowOf_eq_none {k : Nat} : windowOf k = none ↔ 7 < k := by
  unfold windowOf
  split
  next hk => exact ⟨nofun, by omega⟩
  next hk => exact ⟨fun _ => by omega, fun _ => rfl⟩

theorem bankTarget_eq_some {k : Nat} {entry : Option Target} :
    bankTarget k = some entry ↔ (k = 255 ∧ entry = none) ∨ ∃ t : Target, k = t.val + 1 ∧ entry = some t := by
  unfold bankTarget
  split
  next hk =>
    have hk : k = 255 := hk
    simp only [hk, Option.some.injEq, true_and]
    exact ⟨fun h => .inl h.symm, fun h => (h.resolve_right fun ⟨t, ht, _⟩ => by omega).symm⟩
  next hk =>
    have hk : k ≠ 255 := hk
    simp only [hk, false_and, false_or, Option.map_eq_some_iff, targetOf, oneBased_eq_some]
    exact exists_congr fun t => and_congr_right fun _ => eq_comm

theorem bankTarget_eq_none {k : Nat} : bankTarget k = none ↔ k = 0 ∨ (80 < k ∧ k ≠ 255) := by
  unfold bankTarget
  split
  next hk =>
    have hk : k = 255 := hk
    exact ⟨nofun, by omega⟩
  next hk =>
    have hk : k ≠ 255 := hk
    rw [Option.map_eq_none_iff, targetOf, oneBased_eq_none]
    omega

theorem kindOf_eq_some {k : Nat} {kind : CueKind} : kindOf k = some kind ↔ k = kind.code.toNat := by
  match k with
  | 0 => cases kind <;> decide
  | 1 => cases kind <;> decide
  | _ + 2 => cases kind <;> simp [kindOf, CueKind.code]

theorem curveOf_eq_some {k : Nat} {curve : Curve} : curveOf k = some curve ↔ k = curve.code.toNat := by
  match k with
  | 0 => cases curve <;> decide
  | 1 => cases curve <;> decide
  | 2 => cases curve <;> decide
  | 3 => cases curve <;> decide
  | _ + 4 => cases curve <;> simp [curveOf, Curve.code]

theorem muteStateOf_eq_some {k : Nat} {m : MuteState} : muteStateOf k = some m ↔ k = m.code.toNat := by
  match k with
  | 0 => cases m <;> decide
  | 1 => cases m <;> decide
  | _ + 2 => cases m <;> simp [muteStateOf, MuteState.code]

theorem flagOf_eq_some {k : Nat} {b : Bool} : flagOf k = some b ↔ k = b.toNat := by
  match k with
  | 0 => cases b <;> decide
  | 1 => cases b <;> decide
  | _ + 2 => cases b <;> simp [flagOf]

theorem muteStateOf_eq_none {k : Nat} : muteStateOf k = none ↔ 1 < k :=
  match k with
  | 0 => by decide
  | 1 => by decide
  | _ + 2 => by simp [muteStateOf]

theorem flagOf_eq_none {k : Nat} : flagOf k = none ↔ 1 < k :=
  match k with
  | 0 => by decide
  | 1 => by decide
  | _ + 2 => by simp [flagOf]

theorem curveOf_eq_none_iff {k : Nat} : curveOf k = none ↔ 3 < k :=
  match k with
  | 0 => by decide
  | 1 => by decide
  | 2 => by decide
  | 3 => by decide
  | _ + 4 => by simp [curveOf]

theorem actionOf_eq_some {k : Nat} {a : LossAction} :
    actionOf k = some a ↔ k = match a with | .report => 0 | .localMode => 1 | .safe => 2 := by
  match k with
  | 0 => cases a <;> decide
  | 1 => cases a <;> decide
  | 2 => cases a <;> decide
  | _ + 3 => cases a <;> simp [actionOf]

theorem actionOf_eq_none {k : Nat} : actionOf k = none ↔ 2 < k :=
  match k with
  | 0 => by decide
  | 1 => by decide
  | 2 => by decide
  | _ + 3 => by simp [actionOf]

theorem modeOf_eq_some {k : Nat} {mode : AttentionMode} :
    modeOf k = some mode ↔ k = match mode with | .level => 0 | .pulse => 1 := by
  match k with
  | 0 => cases mode <;> decide
  | 1 => cases mode <;> decide
  | _ + 2 => cases mode <;> simp [modeOf]

theorem modeOf_eq_none {k : Nat} : modeOf k = none ↔ 1 < k :=
  match k with
  | 0 => by decide
  | 1 => by decide
  | _ + 2 => by simp [modeOf]

theorem policyOf_eq_some {k : Nat} {policy : ClearPolicy} :
    policyOf k = some policy ↔ k = match policy with | .orderClears => 0 | .readClears => 1 := by
  match k with
  | 0 => cases policy <;> decide
  | 1 => cases policy <;> decide
  | _ + 2 => cases policy <;> simp [policyOf]

theorem policyOf_eq_none {k : Nat} : policyOf k = none ↔ 1 < k :=
  match k with
  | 0 => by decide
  | 1 => by decide
  | _ + 2 => by simp [policyOf]

theorem eventSetOf_of_lt {n : Nat} (h : n < 8192) : eventSetOf n = some (BitVec.ofNat 13 n) :=
  if_pos h

theorem eventSetOf_of_ge {n : Nat} (h : 8192 ≤ n) : eventSetOf n = none :=
  if_neg (Nat.not_lt.mpr h)

theorem eventSetOf_eq_some {n : Nat} {events : EventSet} : eventSetOf n = some events ↔ n = events.toNat := by
  rcases Nat.lt_or_ge n 8192 with hn | hn
  · rw [eventSetOf_of_lt hn, Option.some.injEq]
    constructor
    · rintro rfl
      exact (Nat.mod_eq_of_lt hn).symm
    · rintro rfl
      exact BitVec.ofNat_toNat 13 events
  · rw [eventSetOf_of_ge hn]
    exact ⟨nofun, fun h => by have := events.isLt; omega⟩

/-! ### Writing a code -/

theorem codeOf_toNat {n : Nat} (hn : n ≤ 255) (k : Fin n) : (codeOf k).toNat = k.val + 1 :=
  Nat.mod_eq_of_lt (by omega)

theorem subjectOf_channel (c : Channel) : subjectOf (c.val + 1) = some (.channel c) := by
  have hc : channelOf (c.val + 1) = some c := oneBased_eq_some.mpr rfl
  unfold subjectOf
  rw [hc]

theorem subjectOf_group (m : MuteGroup) : subjectOf (m.val + 65) = some (.group m) := by
  have hc : channelOf (m.val + 65) = none := oneBased_eq_none.mpr (.inr (by omega))
  have hm : oneBased 8 (m.val + 65 - 64) = some m := oneBased_eq_some.mpr (by omega)
  unfold subjectOf
  rw [hc, hm]
  rfl

theorem subjectOf_eq_none {k : Nat} : subjectOf k = none ↔ k = 0 ∨ 72 < k := by
  unfold subjectOf
  split
  next hc =>
    have := oneBased_eq_some.mp hc
    exact ⟨nofun, by omega⟩
  next hc =>
    have := oneBased_eq_none.mp hc
    rw [Option.map_eq_none_iff, oneBased_eq_none]
    omega

theorem subject_code_toNat (u : MuteSubject) :
    u.code.toNat = match u with | .channel c => c.val + 1 | .group m => m.val + 65 := by
  cases u with
  | channel c => exact codeOf_toNat (by decide) c
  | group m => exact Nat.mod_eq_of_lt (by omega)

theorem subjectOf_code (u : MuteSubject) : subjectOf u.code.toNat = some u := by
  rw [subject_code_toNat]
  cases u with
  | channel c => exact subjectOf_channel c
  | group m => exact subjectOf_group m

theorem subjectOf_eq_some {k : Nat} {u : MuteSubject} : subjectOf k = some u ↔ k = u.code.toNat := by
  refine ⟨fun h => ?_, fun h => h ▸ subjectOf_code u⟩
  unfold subjectOf at h
  split at h
  next hc => cases h; exact (oneBased_eq_some.mp hc).trans (subject_code_toNat (.channel _)).symm
  next =>
    obtain ⟨m, hm, rfl⟩ := Option.map_eq_some_iff.mp h
    have := oneBased_eq_some.mp hm
    rw [subject_code_toNat]
    dsimp only
    omega

theorem wordAt_eq (p : List Byte) (i : Nat) : wordAt p i = 256 * byteAt p i + byteAt p (i + 1) := by
  unfold wordAt byteAt wordOfBytes
  rw [BitVec.toNat_append, ← Nat.shiftLeft_add_eq_or_of_lt (BitVec.isLt _), Nat.shiftLeft_eq, Nat.mul_comm]

/-- Each condition of the present-state set has its bit in STATUS READ's byte (section 9.8). -/
theorem present_code_bits (q : Present) :
    (List.range 8).map q.code.getLsbD =
      [q.surface, q.held, q.resolving, q.stopActive, q.localMode, q.editOpen, false, false] := by
  obtain ⟨surface, held, resolving, stopActive, localMode, editOpen, link⟩ := q
  have hbits : ∀ a b c d e f : Bool, (List.range 8).map (nat8 (a.toNat + 2 * b.toNat + 4 * c.toNat + 8 * d.toNat
      + 16 * e.toNat + 32 * f.toNat)).getLsbD = [a, b, c, d, e, f, false, false] := by decide
  exact hbits surface held resolving stopActive localMode editOpen

theorem entryBytes_waiting {e : FadeEntry} {delay : Nat} (h : e.phase = .waiting delay) :
    entryBytes e = 0 :: nat16 e.owner ++ nat16 e.goal ++ nat32 delay := by
  unfold entryBytes
  rw [h]
  rfl

theorem entryBytes_running {e : FadeEntry} {start elapsed : Nat} (h : e.phase = .running start elapsed) :
    entryBytes e = 1 :: nat16 e.owner ++ nat16 e.goal ++ nat32 (e.duration - elapsed) := by
  unfold entryBytes
  rw [h]
  rfl

theorem timeBytes_eq (n : Option Nat) : timeBytes n = nat16 (n.getD 65535) := by
  cases n <;> rfl

theorem moveBytes_eq (m : Move) :
    moveBytes m = nat8 (m.target.val + 1) :: nat16 m.position ++ nat16 (m.fade.getD 65535)
      ++ nat16 (m.delay.getD 65535) ++ [(m.curve.map Curve.code).getD 255] := by
  have hcurve : (match m.curve with | none => nat8 Config.absentByte | some c => c.code)
      = (m.curve.map Curve.code).getD 255 := by
    cases m.curve <;> rfl
  unfold moveBytes
  rw [timeBytes_eq, timeBytes_eq, ← hcurve]
  rfl

/-- Settles O10, from what each coding writes and reads. -/
theorem codesAreTheManuals : Obligations.CodesAreTheManuals := by
  refine ⟨⟨rfl, rfl, rfl, rfl, rfl, fun _ => rfl, rfl, rfl, rfl, fun _ => rfl, fun _ => rfl, rfl, fun _ _ _ _ => rfl,
      rfl, fun _ _ _ => rfl, present_code_bits, rfl, fun _ _ => ⟨rfl, rfl⟩⟩,
    ⟨rfl, fun _ => rfl, fun _ _ _ => rfl, fun _ _ _ _ => rfl, fun _ _ => entryBytes_waiting,
      fun _ _ _ => entryBytes_running, moveBytes_eq, fun _ => rfl⟩,
    fun p i => ⟨rfl, wordAt_eq p i⟩, fun k => ?read⟩
  exact ⟨fun _ => oneBased_eq_some, fun _ => oneBased_eq_some, fun _ => oneBased_eq_some, fun _ => oneBased_eq_some,
    fun _ => pageOf_eq_some, fun _ => windowOf_eq_some, fun _ => bankTarget_eq_some, fun _ => kindOf_eq_some,
    fun _ => curveOf_eq_some, fun _ => muteStateOf_eq_some, fun _ => flagOf_eq_some, fun _ => subjectOf_eq_some,
    fun _ => actionOf_eq_some, fun _ => modeOf_eq_some, fun _ => policyOf_eq_some, fun _ => eventSetOf_eq_some, rfl⟩

end Sys2Proof.Machine

/-! MOVE ADD and MUTE ACTION ADD (R27–R29): the fields of a frame read one by one, and the outcomes of the two orders'
own checks. -/

namespace Sys2Proof.Machine

open Sys2Proof.Safety

/-! ### Lists whose entries may be absent -/

section AllPresent

variable {α : Type} {l : List (Option α)}

theorem allPresent_eq_some {l' : List α} : allPresent l = some l' ↔ l = l'.map some := by
  induction l generalizing l' with
  | nil => cases l' <;> simp [allPresent]
  | cons a rest ih =>
    cases a with
    | none => cases l' <;> simp [allPresent]
    | some a =>
      simp only [allPresent, Option.map_eq_some_iff, ih]
      constructor
      · rintro ⟨rest', rfl, rfl⟩
        rfl
      · intro hl
        cases l' with
        | nil => cases hl
        | cons b rest' =>
          obtain ⟨hab, hrest⟩ := List.cons.inj hl
          exact ⟨rest', hrest, congrArg (· :: rest') (Option.some.inj hab)⟩

theorem allPresent_eq_none : allPresent l = none ↔ none ∈ l := by
  induction l with
  | nil => simp [allPresent]
  | cons a rest ih =>
    cases a with
    | none => simp [allPresent]
    | some a => simp [allPresent, ih]

/-- A list of `n` entries read place by place is absent where one of them is. -/
theorem allPresent_range_eq_none {n : Nat} {read : Nat → Option α} :
    allPresent ((List.range n).map read) = none ↔ ∃ k < n, read k = none := by
  simp [allPresent_eq_none]

/-- A list of `n` entries read place by place has the entry read at each place. -/
theorem allPresent_range_eq_some {n : Nat} {read : Nat → Option α} {l' : List α}
    (h : allPresent ((List.range n).map read) = some l') :
    l'.length = n ∧ ∀ k a, l'[k]? = some a → read k = some a := by
  have hlen : l'.length = n := by simpa using allPresent_length h
  refine ⟨hlen, fun k a ha => ?_⟩
  have hk : k < n := hlen ▸ (List.getElem?_eq_some_iff.mp ha).1
  have hget := congrArg (fun l => l[k]?) (allPresent_eq_some.mp h)
  simpa [ha, hk] using hget

end AllPresent

/-! ### The fields of a frame -/

theorem timeField_eq (n : Nat) : timeField n = if n = 65535 then none else some (min n 9999) := rfl

theorem curveField_eq_none {k : Nat} : curveField k = none ↔ 3 < k ∧ k ≠ 255 := by
  unfold curveField
  split
  next hk =>
    have hk : k = 255 := hk
    exact ⟨nofun, by omega⟩
  next hk =>
    have hk : k ≠ 255 := hk
    rw [Option.map_eq_none_iff, curveOf_eq_none_iff, and_iff_left hk]

theorem curveField_eq_some {k : Nat} {c : Option Curve} (h : curveField k = some c) : c = curveOf k := by
  unfold curveField at h
  split at h
  next hk =>
    have hk : k = 255 := hk
    cases h
    rw [hk]
    rfl
  next =>
    obtain ⟨curve, hcurve, rfl⟩ := Option.map_eq_some_iff.mp h
    exact hcurve.symm

theorem moveAt_eq_none {p : List Byte} {i : Nat} :
    moveAt p i = none ↔ byteAt p i = 0 ∨ 80 < byteAt p i ∨ (3 < byteAt p (i + 7) ∧ byteAt p (i + 7) ≠ 255) := by
  rw [← curveField_eq_none, ← or_assoc, ← oneBased_eq_none (n := 80)]
  change _ ↔ targetOf (byteAt p i) = none ∨ _
  unfold moveAt
  cases targetOf (byteAt p i) <;> cases curveField (byteAt p (i + 7)) <;> simp

theorem moveAt_eq_some {p : List Byte} {i : Nat} {m : Move} (h : moveAt p i = some m) :
    byteAt p i = m.target.val + 1 ∧ m.position = min (wordAt p (i + 1)) 1023
      ∧ m.fade = timeField (wordAt p (i + 3)) ∧ m.delay = timeField (wordAt p (i + 5))
      ∧ m.curve = curveOf (byteAt p (i + 7)) := by
  unfold moveAt at h
  split at h
  next ht hc => cases h; exact ⟨oneBased_eq_some.mp ht, rfl, rfl, rfl, curveField_eq_some hc⟩
  next => cases h

theorem actionAt_eq_none {p : List Byte} {i : Nat} :
    actionAt p i = none ↔ byteAt p i = 0 ∨ 72 < byteAt p i ∨ 1 < byteAt p (i + 1) := by
  rw [← muteStateOf_eq_none, ← or_assoc, ← subjectOf_eq_none]
  unfold actionAt
  cases subjectOf (byteAt p i) <;> cases muteStateOf (byteAt p (i + 1)) <;> simp

theorem actionAt_eq_some {p : List Byte} {i : Nat} {a : MuteAction} (h : actionAt p i = some a) :
    subjectOf (byteAt p i) = some a.subject ∧ muteStateOf (byteAt p (i + 1)) = some a.state := by
  unfold actionAt at h
  split at h
  next hu hm => cases h; exact ⟨hu, hm⟩
  next => cases h

/-! ### The outcomes of the two orders -/

section Fill

variable {f : OrderFrame} {s : State}

theorem mem_moveAdd_lengths {n : Nat} (h : n ∈ payloadLengths 0x21) : moveAddSpec.lengthOk n = true ∧ n ≤ 48 := by
  have h : n ∈ [8, 16, 24, 32, 40, 48] := h
  simp only [List.mem_cons, List.not_mem_nil, or_false] at h
  rcases h with rfl | rfl | rfl | rfl | rfl | rfl <;> decide

theorem mem_muteActionAdd_lengths {n : Nat} (h : n ∈ payloadLengths 0x22) :
    muteActionAddSpec.lengthOk n = true ∧ n ≤ 48 := by
  have h : n ∈ [2, 4, 6, 8, 10, 12, 14, 16] := h
  simp only [List.mem_cons, List.not_mem_nil, or_false] at h
  rcases h with rfl | rfl | rfl | rfl | rfl | rfl | rfl | rfl <;> decide

theorem moveAdd_taken {t : State} (hl : f.payload.length ∈ payloadLengths 0x21) (hm : s.sup.localMode = false)
    (hb : moveAddBody f.payload s = .done [] t) : TakenAs (.moveAdd f) 0x21 f s [] t :=
  takenAs rfl rfl (mem_moveAdd_lengths hl).2 rfl ((judgeOrder_body (mem_moveAdd_lengths hl).1 hm).trans hb)

theorem moveAdd_refused {reason : Reason} (hl : f.payload.length ∈ payloadLengths 0x21)
    (hm : s.sup.localMode = false) (hne : reason ≠ .endOfCues) (hb : moveAddBody f.payload s = .refuse reason []) :
    RefusedAs (.moveAdd f) 0x21 f s reason [] :=
  refusedAs rfl rfl (mem_moveAdd_lengths hl).2 rfl hne ((judgeOrder_body (mem_moveAdd_lengths hl).1 hm).trans hb)

theorem muteActionAdd_taken {t : State} (hl : f.payload.length ∈ payloadLengths 0x22) (hm : s.sup.localMode = false)
    (hb : muteActionAddBody f.payload s = .done [] t) : TakenAs (.muteActionAdd f) 0x22 f s [] t :=
  takenAs rfl rfl (mem_muteActionAdd_lengths hl).2 rfl
    ((judgeOrder_body (mem_muteActionAdd_lengths hl).1 hm).trans hb)

theorem muteActionAdd_refused {reason : Reason} (hl : f.payload.length ∈ payloadLengths 0x22)
    (hm : s.sup.localMode = false) (hne : reason ≠ .endOfCues)
    (hb : muteActionAddBody f.payload s = .refuse reason []) : RefusedAs (.muteActionAdd f) 0x22 f s reason [] :=
  refusedAs rfl rfl (mem_muteActionAdd_lengths hl).2 rfl hne
    ((judgeOrder_body (mem_muteActionAdd_lengths hl).1 hm).trans hb)

variable {p : List Byte} {draft : CueRecord}

theorem moveAddBody_noEdit (h : s.cues.edit = none) : moveAddBody p s = .refuse .noEdit [] := by
  unfold moveAddBody; rw [h]

theorem moveAddBody_range (h : s.cues.edit = some draft) (hr : movesOf p = none) :
    moveAddBody p s = .refuse .range [] := by
  unfold moveAddBody; rw [h, hr]

theorem moveAddBody_limit {moves : List Move} (h : s.cues.edit = some draft) (hm : movesOf p = some moves)
    (hl : Config.draftMoves < (applyMoves moves draft.moves).length) :
    moveAddBody p s = .refuse .moveLimit [] := by
  unfold moveAddBody; rw [h, hm]; exact if_pos hl

theorem moveAddBody_done {moves : List Move} (h : s.cues.edit = some draft) (hm : movesOf p = some moves)
    (hl : (applyMoves moves draft.moves).length ≤ Config.draftMoves) :
    moveAddBody p s = .done [] (setEdit (some { draft with moves := applyMoves moves draft.moves }) s) := by
  unfold moveAddBody; rw [h, hm]; exact if_neg (Nat.not_lt.mpr hl)

theorem muteActionAddBody_noEdit (h : s.cues.edit = none) : muteActionAddBody p s = .refuse .noEdit [] := by
  unfold muteActionAddBody; rw [h]

theorem muteActionAddBody_range (h : s.cues.edit = some draft) (hr : actionsOf p = none) :
    muteActionAddBody p s = .refuse .range [] := by
  unfold muteActionAddBody; rw [h, hr]

theorem muteActionAddBody_limit {actions : List MuteAction} (h : s.cues.edit = some draft)
    (ha : actionsOf p = some actions)
    (hl : Config.draftActions < (applyDraftActions actions draft.actions).length) :
    muteActionAddBody p s = .refuse .muteLimit [] := by
  unfold muteActionAddBody; rw [h, ha]; exact if_pos hl

theorem muteActionAddBody_done {actions : List MuteAction} (h : s.cues.edit = some draft)
    (ha : actionsOf p = some actions)
    (hl : (applyDraftActions actions draft.actions).length ≤ Config.draftActions) :
    muteActionAddBody p s =
      .done [] (setEdit (some { draft with actions := applyDraftActions actions draft.actions }) s) := by
  unfold muteActionAddBody; rw [h, ha]; exact if_neg (Nat.not_lt.mpr hl)

end Fill

/-- Settles O22, from the entry of moves and actions into ordered lists, the fields of a frame and the outcomes of the
two orders' own checks. -/
theorem draftsAreFilled : Obligations.DraftsAreFilled := by
  refine ⟨fun f s hm => ⟨fun hl => ⟨fun h => ?_, fun draft h => ⟨fun hr => ?_, fun moves hmoves => ⟨fun hbig => ?_,
      fun hfits => ?_⟩⟩⟩, fun hl => ⟨fun h => ?_, fun draft h => ⟨fun hr => ?_, fun actions hactions =>
      ⟨fun hbig => ?_, fun hfits => ?_⟩⟩⟩⟩,
    fun moves into h => ⟨applyMoves_pairwise moves h, find?_applyMoves moves into⟩,
    fun actions into h => ⟨applyDraftActions_pairwise actions h, find?_applyDraftActions actions into⟩,
    ⟨fun _ => rfl, fun _ => rfl⟩, fun p => ⟨?_, fun moves h => ?_⟩, fun p => ⟨?_, fun actions h => ?_⟩⟩
  · exact moveAdd_refused hl hm (by decide) (moveAddBody_noEdit h)
  · exact moveAdd_refused hl hm (by decide) (moveAddBody_range h hr)
  · exact moveAdd_refused hl hm (by decide) (moveAddBody_limit h hmoves hbig)
  · exact moveAdd_taken hl hm (moveAddBody_done h hmoves hfits)
  · exact muteActionAdd_refused hl hm (by decide) (muteActionAddBody_noEdit h)
  · exact muteActionAdd_refused hl hm (by decide) (muteActionAddBody_range h hr)
  · exact muteActionAdd_refused hl hm (by decide) (muteActionAddBody_limit h hactions hbig)
  · exact muteActionAdd_taken hl hm (muteActionAddBody_done h hactions hfits)
  · exact allPresent_range_eq_none.trans (exists_congr fun k => and_congr_right fun _ => moveAt_eq_none)
  · obtain ⟨hlen, hread⟩ := allPresent_range_eq_some h
    exact ⟨hlen, fun k m hk => moveAt_eq_some (hread k m hk)⟩
  · exact allPresent_range_eq_none.trans (exists_congr fun k => and_congr_right fun _ => actionAt_eq_none)
  · obtain ⟨hlen, hread⟩ := allPresent_range_eq_some h
    exact ⟨hlen, fun k a hk => actionAt_eq_some (hread k a hk)⟩

end Sys2Proof.Machine

/-! The cue store under every change: order and size of the table, legal records, and the pool in balance (R22, R23). -/

namespace Sys2Proof.Machine

open Sys2Proof.Safety

theorem cueStoreLegal_reset : CueStoreLegal CueStore.reset :=
  ⟨List.Pairwise.nil, by decide, fun _ h => absurd h List.not_mem_nil, nofun, rfl⟩

section CueStore

variable {u : CueStore} {r : CueRecord}

theorem movesOfCue_of_notStored {n : Nat} (h : isStored u.table n = false) : movesOfCue u.table n = 0 := by
  have hnone : findCue u.table n = none := by simpa [isStored] using h
  rw [movesOfCue, hnone]

/-- A commit that its capacity checks let through has room for the record's moves, and for the record (R30). -/
theorem capacityRefusal_eq_none {n k : Nat} (h : capacityRefusal u n k = none) :
    k ≤ u.poolFree + movesOfCue u.table n
      ∧ (isStored u.table n = true ∨ u.table.length + 1 ≤ Config.tableCapacity) := by
  unfold capacityRefusal at h
  split at h
  next hstored =>
    split at h
    next => cases h
    next hpool => exact ⟨Nat.le_of_not_lt hpool, .inl hstored⟩
  next hnew =>
    rw [movesOfCue_of_notStored (Bool.eq_false_iff.mpr hnew)]
    split at h
    next => cases h
    next htable =>
      split at h
      next => cases h
      next hpool => exact ⟨Nat.le_of_not_lt hpool, .inr (Nat.lt_of_not_le htable)⟩

theorem setEdit_legal {edit : Option CueRecord} (h : CueStoreLegal u) (he : ∀ r ∈ edit, RecordLegal r) :
    CueStoreLegal { u with edit := edit } := by
  obtain ⟨horder, hsize, hrecords, -, hpool⟩ := h
  exact ⟨horder, hsize, hrecords, he, hpool⟩

theorem commit_legal (h : CueStoreLegal u) (hr : RecordLegal r)
    (hroom : capacityRefusal u r.number r.moves.length = none) : CueStoreLegal (u.commit r) := by
  obtain ⟨horder, hsize, hrecords, hedit, hpool⟩ := h
  obtain ⟨hmoves, hplace⟩ := capacityRefusal_eq_none hroom
  obtain ⟨hordered, hlength⟩ := insertCue_spec horder r
  refine ⟨hordered, ?_, fun x hx => ?_, hedit, ?_⟩
  · change (insertCue r u.table).length ≤ _
    rw [hlength]
    rcases hplace with hstored | hspace
    · rw [if_pos hstored]; exact hsize
    · split
      · exact hsize
      · exact hspace
  · rcases (mem_insertCue horder).mp hx with rfl | ⟨hx, -⟩
    · exact hr
    · exact hrecords x hx
  · have hheld := movesHeld_insertCue horder r
    simp only [CueStore.commit]
    omega

theorem delete_legal (n : Nat) (h : CueStoreLegal u) : CueStoreLegal (u.delete n) := by
  obtain ⟨horder, hsize, hrecords, hedit, hpool⟩ := h
  refine ⟨horder.filter _, Nat.le_trans (List.length_filter_le _ _) hsize,
    fun x hx => hrecords x (mem_removeCue.mp hx).1, hedit, ?_⟩
  have hheld := movesHeld_removeCue horder n
  simp only [CueStore.delete]
  omega

/-- The record of RECORD LIVE is legal: at most 80 moves in target order, and the eight mute groups in theirs (R34). -/
theorem liveRecord_legal {n : Nat} (kind : CueKind) (s : State) (hlow : 1 ≤ n) (hhigh : n ≤ Config.maxCue) :
    RecordLegal (liveRecord n kind s) := by
  have hmoves : (liveRecord n kind s).moves.length ≤ 80 := by
    simpa only [liveRecord, List.length_map, List.length_finRange] using
      List.length_filter_le (fun t => !targetLocked s.out.windows t) (List.finRange 80)
  refine ⟨hlow, hhigh, Nat.le_trans hmoves (by decide), ?_, ?_, ?_⟩
  · exact List.pairwise_map.mpr ((List.pairwise_lt_finRange 80).filter _)
  · simp [liveRecord, Config.draftActions]
  · exact List.pairwise_map.mpr (List.pairwise_lt_finRange 8)

end CueStore

theorem cueStore_orderChange {kind : Byte} {s t : State} (hc : OrderChange kind s t) (h : CueStoreLegal s.cues) :
    CueStoreLegal t.cues := by
  obtain ⟨-, -, -, hedit, -⟩ := id h
  cases hc with
  | showReset => exact setEdit_legal h nofun
  | recordAbandon => exact setEdit_legal h nofun
  | recordBegin hlow hhigh hmoves hactions =>
    refine setEdit_legal h fun r hr => ?_
    cases hr
    refine ⟨hlow, hhigh, ?_, ?_, ?_, ?_⟩
    · rw [hmoves]; exact Nat.zero_le _
    · rw [hmoves]; exact List.Pairwise.nil
    · rw [hactions]; exact Nat.zero_le _
    · rw [hactions]; exact List.Pairwise.nil
  | moveAdd hd _ hlimit =>
    obtain ⟨hlow, hhigh, -, hordered, hactions⟩ := hedit _ hd
    refine setEdit_legal h fun r hr => ?_
    cases hr
    exact ⟨hlow, hhigh, hlimit, applyMoves_pairwise _ hordered, hactions⟩
  | muteActionAdd hd hlimit =>
    obtain ⟨hlow, hhigh, hmoves, hmoved, -, hordered⟩ := hedit _ hd
    refine setEdit_legal h fun r hr => ?_
    cases hr
    exact ⟨hlow, hhigh, hmoves, hmoved, hlimit, applyDraftActions_pairwise _ hordered⟩
  | recordEnd hd _ hroom => exact setEdit_legal (commit_legal h (hedit _ hd) hroom) nofun
  | recordLive _ hlow hhigh hroom => exact commit_legal h (liveRecord_legal _ s hlow hhigh) hroom
  | cueDelete => exact delete_legal _ h
  | _ => exact h

theorem cueStore_change {s t : State} (hc : Change s t) (h : CueStoreLegal s.cues) : CueStoreLegal t.cues := by
  cases hc with
  | order horder => exact cueStore_orderChange horder h
  | _ => exact h

/-- Settles O56: only the orders of the cue store change it, and each keeps it legal. -/
theorem cueStoreKept : Obligations.CueStoreKept := by
  intro s t h hs
  exact step_keeps (Inv := fun s => CueStoreLegal s.cues) cueStore_change (fun _ _ h => h) (fun _ _ h => h)
    (fun _ _ h => h) (fun _ => cueStoreLegal_reset) (fun _ _ _ => cueStoreLegal_reset) h hs

end Sys2Proof.Machine

/-! The playback under every change: one entry of each phase per target, the playback state and the freeze in agreement
with the table, the pointers stored, a resolution within its bound (R42, R43, R45, R69, R91). -/

namespace Sys2Proof.Machine

open Sys2Proof.Safety

/-! ### The fade table's keys (R69) -/

/-- Two entries stand under different keys: another target, or the other phase. -/
def KeyDiffers (a b : FadeEntry) : Prop :=
  ¬(a.target = b.target ∧ a.isRunning = b.isRunning)

section Keyed

variable {u : FadeEngine}

theorem keyed_append {l : List FadeEntry} {e : FadeEntry} (h : l.Pairwise KeyDiffers)
    (hnew : ∀ a ∈ l, a.target = e.target → a.isRunning ≠ e.isRunning) : (l ++ [e]).Pairwise KeyDiffers := by
  refine List.pairwise_append.mpr ⟨h, List.pairwise_singleton _ e, fun a ha b hb => ?_⟩
  rw [List.mem_singleton.mp hb]
  exact fun ⟨htarget, hphase⟩ => hnew a ha htarget hphase

theorem applyMove_keyed (owner : Nat) (m : FiredMove) (h : u.entries.Pairwise KeyDiffers) :
    (u.applyMove owner m).entries.Pairwise KeyDiffers := by
  have hkept : (u.dropWaiting m.target).entries.Pairwise KeyDiffers := h.filter _
  unfold FadeEngine.applyMove
  split
  next =>
    refine keyed_append hkept fun a ha htarget => ?_
    rw [(mem_dropWaiting.mp ha).2 htarget]
    exact Bool.false_ne_true.symm
  next =>
    split
    next =>
      refine keyed_append (hkept.filter _) fun a ha htarget => ?_
      obtain ⟨hwait, hrun⟩ := mem_dropRunning.mp ha
      rw [(mem_dropWaiting.mp hwait).2 htarget] at hrun
      exact absurd (hrun htarget) (by decide)
    next => exact hkept.filter _

theorem fireMove_keyed (owner : Nat) (m : FiredMove) {s : State} (h : s.fade.entries.Pairwise KeyDiffers) :
    (fireMove owner s m).fade.entries.Pairwise KeyDiffers := by
  unfold fireMove
  split
  · exact h
  · exact applyMove_keyed owner m h

theorem fireMoves_keyed (r : CueRecord) {s : State} (h : s.fade.entries.Pairwise KeyDiffers) :
    (fireMoves r s).fade.entries.Pairwise KeyDiffers := by
  unfold fireMoves
  generalize r.moves = moves
  induction moves generalizing s with
  | nil => exact h
  | cons m rest ih => exact ih (fireMove_keyed _ _ h)

theorem fire_fade (r : CueRecord) (s : State) : (fire r s).fade = (fireMoves r s).fade := rfl

theorem startWaiting_keyed (t : Target) (h : u.entries.Pairwise KeyDiffers) :
    (u.startWaiting t).entries.Pairwise KeyDiffers := by
  have hkept : (u.dropRunning t).entries.Pairwise KeyDiffers := h.filter _
  refine List.pairwise_map.mpr (hkept.imp_of_mem fun {a b} ha hb hdiffers => ?_)
  by_cases hat : a.target = t <;> by_cases hbt : b.target = t
  · have hphase := ((mem_dropRunning.mp ha).2 hat).trans ((mem_dropRunning.mp hb).2 hbt).symm
    exact absurd ⟨hat.trans hbt.symm, hphase⟩ hdiffers
  · rw [if_pos hat, if_neg hbt]
    exact fun ⟨htarget, _⟩ => hbt (htarget.symm.trans hat)
  · rw [if_neg hat, if_pos hbt]
    exact fun ⟨htarget, _⟩ => hat (htarget.trans hbt)
  · rw [if_neg hat, if_neg hbt]
    exact hdiffers

theorem resolveAll_keyed (ws : Vector (Option Window) 8) (walk : List CueRecord) (time : Nat)
    (h : u.entries.Pairwise KeyDiffers) : (u.resolveAll ws walk time).entries.Pairwise KeyDiffers := by
  have hnodup := List.nodup_finRange 80
  obtain ⟨hentries, -⟩ := resolve_spec ws walk time (List.finRange 80) hnodup u
  unfold FadeEngine.resolveAll
  rw [hentries]
  refine List.pairwise_append.mpr ⟨h.filter _, ?_, fun a ha b hb => ?_⟩
  · split
    · refine List.pairwise_map.mpr ((hnodup.filter _).imp fun hne => ?_)
      exact fun ⟨htarget, _⟩ => hne htarget
    · exact List.Pairwise.nil
  · split at hb
    · obtain ⟨x, hx, rfl⟩ := List.mem_map.mp hb
      have hinstalled := (List.mem_filter.mp hx).2
      have hkept := (List.mem_filter.mp ha).2
      rintro ⟨htarget, -⟩
      have htarget : a.target = x := htarget
      rw [htarget, hinstalled] at hkept
      simp at hkept
    · exact absurd hb List.not_mem_nil

theorem tick_target (e : FadeEntry) : e.tick.target = e.target := by
  unfold FadeEntry.tick
  split <;> rfl

theorem tick_isRunning (e : FadeEntry) : e.tick.isRunning = e.isRunning := by
  unfold FadeEntry.tick FadeEntry.isRunning
  cases e.phase <;> rfl

theorem tick_keyed (freeze : Bool) (h : u.entries.Pairwise KeyDiffers) :
    (u.tick freeze).entries.Pairwise KeyDiffers := by
  unfold FadeEngine.tick
  split
  · exact h
  · refine List.pairwise_map.mpr (h.imp fun hdiffers => ?_)
    simpa only [KeyDiffers, tick_target, tick_isRunning] using hdiffers

theorem leftByCompletion_entries (owner : Nat) (u : FadeEngine) (s : State) :
    (leftByCompletion owner u s).fade.entries = u.entries := by
  unfold leftByCompletion
  dsimp only
  split <;> rfl

theorem keyed_change {s t : State} (hc : Change s t) (h : s.fade.entries.Pairwise KeyDiffers) :
    t.fade.entries.Pairwise KeyDiffers := by
  cases hc with
  | order hc =>
    cases hc with
    | go => exact fireMoves_keyed _ h
    | showReset => exact List.Pairwise.nil
    | _ => exact h
  | fired => exact fireMoves_keyed _ h
  | fadeStarted => exact startWaiting_keyed _ h
  | snapped => rw [leftByCompletion_entries]; exact h.filter _
  | faded => rw [leftByCompletion_entries]; exact h.filter _
  | resolved => exact resolveAll_keyed _ _ _ h
  | _ => exact h

theorem fadeTableKeyed_step {s t : State} (hs : step s = .next t) (h : FadeTableKeyed s) : FadeTableKeyed t :=
  step_keeps (Inv := fun s => s.fade.entries.Pairwise KeyDiffers) keyed_change (fun _ _ h => h) (fun _ _ h => h)
    (fun _ _ h => tick_keyed _ h) (fun _ => List.Pairwise.nil) (fun _ _ _ => List.Pairwise.nil) h hs

end Keyed

/-! ### The playback state (R42, R43, R57, R91) -/

/-- The playback state that the fade table alone gives (R42). -/
def tableState (entries : List FadeEntry) : PlayState :=
  if entries.isEmpty then .standby else .running

/-- In STANDBY or RUNNING. -/
def PlayState.Unheld (p : PlayState) : Prop :=
  p = .standby ∨ p = .running

theorem held_not_unheld : ¬PlayState.held.Unheld := by
  rintro (h | h) <;> cases h

theorem resolving_not_unheld (r : Resolution) : ¬(PlayState.resolving r).Unheld := by
  rintro (h | h) <;> cases h

theorem followTable_of_unheld {entries : List FadeEntry} {p : PlayState} (h : p.Unheld) :
    followTable entries p = tableState entries := by
  rcases h with rfl | rfl <;> rfl

theorem followTable_of_not_unheld {entries : List FadeEntry} {p : PlayState} (h : ¬p.Unheld) :
    followTable entries p = p := by
  cases p with
  | standby => exact absurd (.inl rfl) h
  | running => exact absurd (.inr rfl) h
  | held => rfl
  | resolving => rfl

/-- What a change does to the playback state and the freeze. -/
inductive StateChange (s t : State) : Prop
  | same : t.play.state = s.play.state → t.play.freeze = s.play.freeze →
      (s.play.state.Unheld → (t.fade.entries = [] ↔ s.fade.entries = [])) → StateChange s t
  | held : t.play.state = .held → t.play.freeze = true → StateChange s t
  | settled : s.play.state.Unheld → t.play.state = tableState t.fade.entries → t.play.freeze = s.play.freeze →
      StateChange s t
  | released : t.play.state = tableState t.fade.entries → t.play.freeze = false → StateChange s t
  | started (r : Resolution) : t.play.state = .resolving r → r.start = s.clock →
      isStored s.cues.table r.goal = true → StateChange s t
  | marked (r r' : Resolution) : s.play.state = .resolving r → t.play.state = .resolving r' → r'.start = r.start →
      r'.goal = r.goal → StateChange s t

theorem StateChange.refl (s : State) : StateChange s s :=
  .same rfl rfl fun _ => Iff.rfl

/-- A change of playback's other fields, or of other blocks than the fade engine, leaves the state as it is. -/
theorem stateChange_of_eq {s t : State} (hstate : t.play.state = s.play.state)
    (hfreeze : t.play.freeze = s.play.freeze) (hfade : t.fade = s.fade) : StateChange s t :=
  .same hstate hfreeze fun _ => by rw [hfade]

theorem fire_stateChange (r : CueRecord) {s t : State} (h : s.play.state.Unheld)
    (hstate : t.play.state = (fire r s).play.state)
    (hfreeze : t.play.freeze = (fire r s).play.freeze) (hfade : t.fade = (fire r s).fade) : StateChange s t := by
  rw [fire_eq h] at hstate hfreeze
  refine .settled h ?_ hfreeze
  rw [hstate, hfade, fire_fade]
  unfold firedState tableState
  cases (fireMoves r s).fade.entries <;> rfl

theorem actHold_stateChange (s : State) : StateChange s (actHold s) := by
  cases h : s.play.state with
  | standby => rw [actHold_of_unheld (.inl h)]; exact .held rfl rfl
  | running => rw [actHold_of_unheld (.inr h)]; exact .held rfl rfl
  | held => rw [actHold_of_held h]; exact .refl s
  | resolving r => rw [actHold_of_resolving h]; exact .marked r _ h rfl rfl rfl

theorem actResume_stateChange (s : State) : StateChange s (actResume s) := by
  cases h : s.play.state with
  | standby => rw [actResume_of_unheld (.inl h)]; exact .refl s
  | running => rw [actResume_of_unheld (.inr h)]; exact .refl s
  | held => rw [actResume_of_held h]; exact .released rfl rfl
  | resolving r => rw [actResume_of_resolving h]; exact .marked r _ h rfl rfl rfl

/-- What a change does to the playback state, its freeze and the table is seen in these alone. -/
theorem StateChange.congr {s s' t t' : State} (h : StateChange s t) (hs : s'.play = s.play) (hsf : s'.fade = s.fade)
    (hclock : s'.clock = s.clock) (hcues : s'.cues = s.cues) (ht : t'.play = t.play) (htf : t'.fade = t.fade) :
    StateChange s' t' := by
  cases h with
  | same h1 h2 h3 => exact .same (by rw [ht, hs, h1]) (by rw [ht, hs, h2]) (by rw [hs, htf, hsf]; exact h3)
  | held h1 h2 => exact .held (by rw [ht, h1]) (by rw [ht, h2])
  | settled h1 h2 h3 => exact .settled (by rw [hs]; exact h1) (by rw [ht, htf, h2]) (by rw [ht, hs, h3])
  | released h1 h2 => exact .released (by rw [ht, htf, h1]) (by rw [ht, h2])
  | started r h1 h2 h3 => exact .started r (by rw [ht, h1]) (by rw [hclock, h2]) (by rw [hcues]; exact h3)
  | marked r r' h1 h2 h3 h4 => exact .marked r r' (by rw [hs, h1]) (by rw [ht, h2]) h3 h4

theorem changeStop_stateChange (change : MuteUnit → MuteUnit) (s : State) :
    StateChange s (changeStop change s) := by
  rw [changeStop_eq]
  split
  · exact (actHold_stateChange { s with mute := reevaluate s.mute (change s.mute) }).congr rfl rfl rfl rfl rfl rfl
  · exact stateChange_of_eq rfl rfl rfl

/-- A loss of the link keeps the playback, or starts a SAFE goto to a stored cue (R173). -/
theorem lossAction_play (s : State) :
    (lossAction s).play = s.play ∨ ∃ r : Resolution, r.start = s.clock ∧ isStored s.cues.table r.goal = true
      ∧ (lossAction s).play = { s.play with follow := none, state := .resolving r } := by
  unfold lossAction
  split
  · exact .inl rfl
  · exact .inl rfl
  · split
    next hstored => exact .inr ⟨_, rfl, hstored, rfl⟩
    next => exact .inl rfl

theorem relink_play (s : State) :
    (relink s).play = s.play ∨ ∃ r : Resolution, r.start = s.clock ∧ isStored s.cues.table r.goal = true
      ∧ (relink s).play = { s.play with follow := none, state := .resolving r } := by
  rcases relink_cases s with ⟨_, h⟩ | ⟨_, h⟩ | ⟨_, h⟩ | ⟨_, h⟩ <;> rw [h]
  · exact .inl rfl
  · exact .inl rfl
  · exact .inl rfl
  · exact lossAction_play (latch .linkLost (withLink .lost s))

theorem configureSupervision_play (c : SupervisionConfig) (s : State) :
    (configureSupervision c s).play = s.play ∨ ∃ r : Resolution, r.start = s.clock
      ∧ isStored s.cues.table r.goal = true
      ∧ (configureSupervision c s).play = { s.play with follow := none, state := .resolving r } := by
  unfold configureSupervision
  split
  · exact .inl rfl
  · exact relink_play { s with sup := { s.sup with config := c } }
  · exact .inl rfl
  · exact .inl rfl

theorem stateChange_of_loss {s t : State} (hfade : t.fade = s.fade)
    (h : t.play = s.play ∨ ∃ r : Resolution, r.start = s.clock ∧ isStored s.cues.table r.goal = true
      ∧ t.play = { s.play with follow := none, state := .resolving r }) : StateChange s t := by
  rcases h with h | ⟨r, hstart, hstored, h⟩
  · exact stateChange_of_eq (by rw [h]) (by rw [h]) hfade
  · exact .started r (by rw [h]) hstart hstored

/-- The playback after a completion (R60, R98). -/
theorem completeResolution_play (r : Resolution) (s : State) :
    (completeResolution r s).play = { s.play with
      current := r.goal, standby := computedStandby s.cues.table r.goal
      state := if r.holdRequested then .held
        else tableState (s.fade.resolveAll s.out.windows (walkFrom s.cues.table r.goal) r.gotoTime).entries
      freeze := r.holdRequested } := by
  unfold completeResolution leaveResolving
  cases r.holdRequested <;> rfl

theorem orderChange_state {kind : Byte} {s t : State} (hc : OrderChange kind s t) : StateChange s t := by
  cases hc with
  | go hr => exact fire_stateChange _ (checkGo_ok hr).2 rfl rfl rfl
  | hold => exact (actHold_stateChange s).congr rfl rfl rfl rfl rfl (by rw [actHold_frame])
  | resume => exact (actResume_stateChange s).congr rfl rfl rfl rfl rfl (by rw [actResume_frame])
  | goto _ hstored => exact .started _ rfl rfl hstored
  | back _ hgoal => exact .started _ rfl rfl (isStored_lastBefore hgoal)
  | stopSet =>
    refine (changeStop_stateChange (fun u => { u with stopFlag := true }) s).congr rfl rfl rfl rfl rfl ?_
    rw [changeStop_frame]
  | stopRelease =>
    refine (changeStop_stateChange (fun u => { u with stopFlag := false }) s).congr rfl rfl rfl rfl rfl ?_
    rw [changeStop_frame]
  | showReset => exact .released rfl rfl
  | heartbeat _ hu =>
    subst hu
    exact stateChange_of_loss rfl (relink_play { s with sup := _ })
  | supervisionConfig => exact stateChange_of_loss rfl (configureSupervision_play _ s)
  | baseSet => exact .same rfl rfl fun _ => Iff.rfl
  | _ => exact stateChange_of_eq rfl rfl rfl

theorem delayDue_mem {u : FadeEngine} {t : Target} {e : FadeEntry} (h : u.delayDue t = some e) :
    e ∈ u.entries ∧ e.target = t ∧ e.phase = .waiting 0 := by
  have hfound := List.find?_some h
  simp only [Bool.and_eq_true, decide_eq_true_eq] at hfound
  exact ⟨List.mem_of_find?_eq_some h, hfound⟩

/-- The entry whose delay ran out stays in the table as it starts to run (R78). -/
theorem startWaiting_ne_nil {u : FadeEngine} {t : Target} {e : FadeEntry} (h : u.delayDue t = some e) :
    (u.startWaiting t).entries ≠ [] := by
  obtain ⟨hmem, -, hphase⟩ := delayDue_mem h
  have hkept : e ∈ (u.dropRunning t).entries :=
    mem_dropRunning.mpr ⟨hmem, fun _ => by unfold FadeEntry.isRunning; rw [hphase]⟩
  exact fun hnil => List.ne_nil_of_mem hkept (List.map_eq_nil_iff.mp hnil)

theorem leftByCompletion_stateChange (owner : Nat) (u : FadeEngine) (s : State) :
    StateChange s (leftByCompletion owner u s) := by
  by_cases h : s.play.state.Unheld
  · refine .settled h ?_ rfl
    rw [leftByCompletion_entries]
    exact followTable_of_unheld h
  · exact .same (followTable_of_not_unheld h) rfl fun h' => absurd h' h

theorem change_state {s t : State} (hc : Change s t) : StateChange s t := by
  cases hc with
  | order hc => exact orderChange_state hc
  | fired _ h => exact fire_stateChange _ h rfl rfl rfl
  | fadeStarted hdue =>
    refine .same rfl rfl fun _ => ⟨fun h => absurd h (startWaiting_ne_nil hdue), fun h => ?_⟩
    exact absurd h (List.ne_nil_of_mem (delayDue_mem hdue).1)
  | snapped => exact leftByCompletion_stateChange _ _ s
  | faded => exact leftByCompletion_stateChange _ _ s
  | resolved hr =>
    rename_i r
    have hplay := completeResolution_play r s
    cases hhold : r.holdRequested
    · exact .released (by rw [hplay, hhold]; rfl) (by rw [hplay, hhold])
    · exact .held (by rw [hplay, hhold]; rfl) (by rw [hplay, hhold])
  | stopLine =>
    rename_i level
    refine (changeStop_stateChange (fun u => { u with stopLine := level }) s).congr rfl rfl rfl rfl rfl ?_
    rw [changeStop_frame]
  | windowEnded _ hu =>
    subst hu
    exact stateChange_of_loss rfl (relink_play { s with sup := _ })
  | _ => exact stateChange_of_eq rfl rfl rfl

/-! ### What follows for each part of the invariant -/

/-- STANDBY and RUNNING follow the table, as a property of state and table (R42). -/
def AgreesWithTable (p : PlayState) (entries : List FadeEntry) : Prop :=
  (p = .standby → entries = []) ∧ (p = .running → entries ≠ [])

theorem stateFollowsTable_iff (s : State) : StateFollowsTable s ↔ AgreesWithTable s.play.state s.fade.entries := by
  unfold StateFollowsTable AgreesWithTable
  cases s.play.state <;> simp

theorem tableState_agrees (entries : List FadeEntry) : AgreesWithTable (tableState entries) entries := by
  cases entries <;> simp [AgreesWithTable, tableState]

theorem stateFollowsTable_change {s t : State} (hc : Change s t) (h : StateFollowsTable s) :
    StateFollowsTable t := by
  rw [stateFollowsTable_iff] at h ⊢
  cases change_state hc with
  | same hstate _ hentries =>
    rw [hstate]
    exact ⟨fun hp => (hentries (.inl hp)).mpr (h.1 hp), fun hp hnil => h.2 hp ((hentries (.inr hp)).mp hnil)⟩
  | held hstate => rw [hstate]; exact ⟨nofun, nofun⟩
  | settled _ hstate => rw [hstate]; exact tableState_agrees _
  | released hstate => rw [hstate]; exact tableState_agrees _
  | started r hstate => rw [hstate]; exact ⟨nofun, nofun⟩
  | marked r r' _ hstate => rw [hstate]; exact ⟨nofun, nofun⟩

theorem stateFollowsTable_advance {s : State} (h : StateFollowsTable s) : StateFollowsTable (advance s) := by
  rw [stateFollowsTable_iff] at h ⊢
  have hnil : (advance s).fade.entries = [] ↔ s.fade.entries = [] := by
    change (FadeEngine.tick s.play.freeze s.fade).entries = [] ↔ _
    unfold FadeEngine.tick
    split
    · exact Iff.rfl
    · exact List.map_eq_nil_iff
  exact ⟨fun hp => hnil.mpr (h.1 hp), fun hp hn => h.2 hp (hnil.mp hn)⟩

theorem freezeFollowsState_iff (s : State) :
    FreezeFollowsState s ↔
      (s.play.state.Unheld → s.play.freeze = false) ∧ (s.play.state = .held → s.play.freeze = true) := by
  unfold FreezeFollowsState PlayState.Unheld
  cases s.play.state <;> simp

theorem tableState_ne_held (entries : List FadeEntry) : tableState entries ≠ .held := by
  unfold tableState
  split <;> decide

theorem freezeFollowsState_change {s t : State} (hc : Change s t) (h : FreezeFollowsState s) :
    FreezeFollowsState t := by
  rw [freezeFollowsState_iff] at h ⊢
  cases change_state hc with
  | same hstate hfreeze => rw [hstate, hfreeze]; exact h
  | held hstate hfreeze =>
    rw [hstate, hfreeze]
    exact ⟨fun hu => absurd hu held_not_unheld, fun _ => rfl⟩
  | settled hu hstate hfreeze =>
    rw [hstate, hfreeze]
    exact ⟨fun _ => h.1 hu, fun hheld => absurd hheld (tableState_ne_held _)⟩
  | released hstate hfreeze =>
    rw [hstate, hfreeze]
    exact ⟨fun _ => rfl, fun hheld => absurd hheld (tableState_ne_held _)⟩
  | started r hstate => rw [hstate]; exact ⟨fun hu => absurd hu (resolving_not_unheld _), nofun⟩
  | marked r r' _ hstate => rw [hstate]; exact ⟨fun hu => absurd hu (resolving_not_unheld _), nofun⟩

theorem tableState_ne_resolving (entries : List FadeEntry) (r : Resolution) : tableState entries ≠ .resolving r := by
  unfold tableState
  split <;> nofun

theorem resolutionWithinBound_iff (s : State) :
    ResolutionWithinBound s ↔ ∀ r, s.play.state = .resolving r → (s.clock - r.start).toNat ≤ 20 := by
  unfold ResolutionWithinBound resolutionAge
  cases s.play.state <;> simp [Config.resolutionBound]

theorem change_clock {s t : State} (hc : Change s t) : t.clock = s.clock := by
  cases hc with
  | order hc => cases hc <;> rfl
  | _ => rfl

theorem resolutionWithinBound_change {s t : State} (hc : Change s t) (h : ResolutionWithinBound s) :
    ResolutionWithinBound t := by
  rw [resolutionWithinBound_iff] at h ⊢
  rw [change_clock hc]
  intro x hx
  cases change_state hc with
  | same hstate => exact h x (hstate.symm.trans hx)
  | held hstate => rw [hstate] at hx; cases hx
  | settled _ hstate => exact absurd (hstate.symm.trans hx) (tableState_ne_resolving _ x)
  | released hstate => exact absurd (hstate.symm.trans hx) (tableState_ne_resolving _ x)
  | started r hstate hstart =>
    rw [hstate] at hx
    cases hx
    rw [hstart, BitVec.sub_self]
    exact Nat.zero_le 20
  | marked r r' hr hstate hstart =>
    rw [hstate] at hx
    cases hx
    rw [hstart]
    exact h r hr

/-- A millisecond passes only while a resolution is younger than its bound, whose arrival is an event (R91). -/
theorem resolutionWithinBound_advance {s : State} (hdue : forcedEvents s = []) (h : ResolutionWithinBound s) :
    ResolutionWithinBound (advance s) := by
  rw [resolutionWithinBound_iff] at h ⊢
  intro r hr
  have hr : s.play.state = .resolving r := hr
  have hbound := h r hr
  have hyoung : (s.clock - r.start).toNat ≠ 20 := fun hage => by
    have hforced : Instr.resolutionCompletion ∈ forcedEvents s := by
      refine List.mem_append_right _ (mem_when.mpr ⟨?_, rfl⟩)
      simp [resolutionAtBound, resolutionAge, hr, hage, Config.resolutionBound]
    rw [hdue] at hforced
    exact absurd hforced List.not_mem_nil
  change (s.clock + 1 - r.start).toNat ≤ 20
  bv_omega

/-! ### The pointers (R45, R57, R99) -/

/-- The standby is a stored cue or absent. -/
def StandbyStored (s : State) : Prop :=
  ∀ c ∈ s.play.standby, isStored s.cues.table c.number = true

/-- The goal of a resolution in flight is stored. -/
def GoalStored (s : State) : Prop :=
  ∀ r, s.play.state = .resolving r → isStored s.cues.table r.goal = true

theorem pointersStored_iff (s : State) : PointersStored s ↔ StandbyStored s ∧ GoalStored s := by
  unfold PointersStored StandbyStored GoalStored
  cases s.play.state <;> simp

theorem computedStandby_stored {table : List CueRecord} {n : Nat} {c : StandbyCue}
    (h : c ∈ computedStandby table n) : isStored table c.number = true := by
  obtain ⟨k, hk, rfl⟩ := Option.map_eq_some_iff.mp h
  exact isStored_nextAfter hk

theorem standbyOver_stored {table : List CueRecord} {p : Playback} {c : StandbyCue}
    (h : c ∈ standbyOver table p) : isStored table c.number = true := by
  unfold standbyOver at h
  split at h
  next =>
    split at h
    next hstored => cases h; exact hstored
    next => exact computedStandby_stored h
  next => exact computedStandby_stored h
  next => exact computedStandby_stored h

theorem actHold_standby (s : State) : (actHold s).play.standby = s.play.standby := by
  unfold actHold
  split <;> rfl

theorem actResume_standby (s : State) : (actResume s).play.standby = s.play.standby := by
  unfold actResume
  split <;> rfl

theorem changeStop_standby (change : MuteUnit → MuteUnit) (s : State) :
    (changeStop change s).play.standby = s.play.standby := by
  rw [changeStop_eq]
  split
  · exact actHold_standby _
  · rfl

theorem fire_standby (r : CueRecord) (s : State) :
    (fire r s).play.standby = computedStandby s.cues.table r.number := by
  unfold fire
  rw [fireMoves_eq r s]
  rfl

theorem standbyStored_of_fire (r : CueRecord) {s t : State} (hstandby : t.play.standby = (fire r s).play.standby)
    (htable : t.cues.table = s.cues.table) : StandbyStored t := by
  intro c hc
  rw [hstandby, fire_standby] at hc
  rw [htable]
  exact computedStandby_stored hc

theorem standbyStored_of_eq {s t : State} (h : StandbyStored s) (hstandby : t.play.standby = s.play.standby)
    (htable : t.cues.table = s.cues.table) : StandbyStored t := by
  unfold StandbyStored
  rw [hstandby, htable]
  exact h

theorem standbyStored_of_loss {s t : State} (h : StandbyStored s) (htable : t.cues.table = s.cues.table)
    (hp : t.play = s.play ∨ ∃ r : Resolution, r.start = s.clock ∧ isStored s.cues.table r.goal = true
      ∧ t.play = { s.play with follow := none, state := .resolving r }) : StandbyStored t := by
  rcases hp with hp | ⟨r, -, -, hp⟩
  · exact standbyStored_of_eq h (by rw [hp]) htable
  · exact standbyStored_of_eq h (by rw [hp]) htable

theorem standbyStored_orderChange {kind : Byte} {s t : State} (hc : OrderChange kind s t) (h : StandbyStored s) :
    StandbyStored t := by
  cases hc with
  | go => exact standbyStored_of_fire _ rfl rfl
  | hold => exact standbyStored_of_eq h (actHold_standby s) rfl
  | resume => exact standbyStored_of_eq h (actResume_standby s) rfl
  | standbySet hstored => intro c hc; cases hc; exact hstored
  | stopSet => exact standbyStored_of_eq h (changeStop_standby _ s) rfl
  | stopRelease => exact standbyStored_of_eq h (changeStop_standby _ s) rfl
  | showReset => exact fun c hc => computedStandby_stored hc
  | recordEnd => exact fun c hc => standbyOver_stored hc
  | recordLive => exact fun c hc => standbyOver_stored hc
  | cueDelete => exact fun c hc => standbyOver_stored hc
  | heartbeat _ hu =>
    subst hu
    exact standbyStored_of_loss h rfl (relink_play { s with sup := _ })
  | supervisionConfig => exact standbyStored_of_loss h rfl (configureSupervision_play _ s)
  | _ => exact h

theorem standbyStored_change {s t : State} (hc : Change s t) (h : StandbyStored s) : StandbyStored t := by
  cases hc with
  | order hc => exact standbyStored_orderChange hc h
  | fired => exact standbyStored_of_fire _ rfl rfl
  | resolved =>
    intro c hc
    dsimp only at hc
    rw [completeResolution_play] at hc
    exact computedStandby_stored hc
  | stopLine => exact standbyStored_of_eq h (changeStop_standby _ s) rfl
  | windowEnded _ hu =>
    subst hu
    exact standbyStored_of_loss h rfl (relink_play { s with sup := s.sup.countError.newWindow })
  | _ => exact standbyStored_of_eq h rfl rfl

theorem change_stored {s t : State} (hc : Change s t) {n : Nat} (h : isStored s.cues.table n = true)
    (hr : t.play.state.isResolving = true) : isStored t.cues.table n = true := by
  cases hc with
  | order hc =>
    cases hc with
    | recordEnd _ hbusy => exact absurd (hr.symm.trans hbusy) (by decide)
    | recordLive hbusy => exact absurd (hr.symm.trans hbusy) (by decide)
    | cueDelete hbusy => exact absurd (hr.symm.trans hbusy) (by decide)
    | _ => exact h
  | _ => exact h

theorem goalStored_change {s t : State} (hc : Change s t) (h : GoalStored s) : GoalStored t := by
  intro x hx
  have hresolving : t.play.state.isResolving = true := by rw [hx]; rfl
  cases change_state hc with
  | same hstate => exact change_stored hc (h x (hstate.symm.trans hx)) hresolving
  | held hstate => rw [hstate] at hx; cases hx
  | settled _ hstate => exact absurd (hstate.symm.trans hx) (tableState_ne_resolving _ x)
  | released hstate => exact absurd (hstate.symm.trans hx) (tableState_ne_resolving _ x)
  | started r hstate _ hstored =>
    rw [hstate] at hx
    cases hx
    exact change_stored hc hstored hresolving
  | marked r r' hr hstate _ hgoal =>
    rw [hstate] at hx
    cases hx
    rw [hgoal]
    exact change_stored hc (h r hr) hresolving

theorem pointersStored_change {s t : State} (hc : Change s t) (h : PointersStored s) : PointersStored t := by
  rw [pointersStored_iff] at h ⊢
  exact ⟨standbyStored_change hc h.1, goalStored_change hc h.2⟩

/-- Settles O57: each of the five properties is kept by every change, by the passing of time and by the resets. -/
theorem playbackKept : Obligations.PlaybackKept := by
  intro s t hs
  refine ⟨fadeTableKeyed_step hs, fun h => ?state, fun h => ?freeze, fun h => ?pointers, fun h => ?bound⟩
  case state =>
    exact step_keeps stateFollowsTable_change (fun _ _ h => h) (fun _ _ h => h)
      (fun _ _ h => stateFollowsTable_advance h) (fun _ => rfl) (fun _ _ _ => rfl) h hs
  case freeze =>
    exact step_keeps freezeFollowsState_change (fun _ _ h => h) (fun _ _ h => h) (fun _ _ h => h) (fun _ => rfl)
      (fun _ _ _ => rfl) h hs
  case pointers =>
    exact step_keeps pointersStored_change (fun _ _ h => h) (fun _ _ h => h) (fun _ _ h => h)
      (fun _ => ⟨nofun, trivial⟩) (fun _ _ _ => ⟨nofun, trivial⟩) h hs
  case bound =>
    exact step_keeps resolutionWithinBound_change (fun _ _ h => h) (fun _ _ h => h)
      (fun _ => resolutionWithinBound_advance) (fun _ => nofun) (fun _ _ _ => nofun) h hs

end Sys2Proof.Machine

/-! The Ownership Unit under every change: strips and owners in agreement, and a target at most once on a page (R105,
R106). -/

namespace Sys2Proof.Machine

open Sys2Proof.Safety

/-! ### Strips and owners in agreement -/

section Agree

variable {u : Ownership}

/-- A strip's record may change where its latched target does not. -/
theorem agree_setStrip {i : Strip} {r : StripRecord} (h : u.Agree)
    (hr : latchedTarget r = latchedTarget u.strips[i]) : (u.setStrip i r).Agree := by
  intro j t
  rw [setStrip_get, setStrip_owners]
  split
  next hj => rw [hr, hj]; exact h i t
  next => exact h j t

/-- A target's record may change from and to one that is not OPERATOR. -/
theorem agree_setOwner {t : Target} {o : Owner} (h : u.Agree) (hold : ∀ i, u.owners[t] ≠ .operator i)
    (hnew : ∀ i, o ≠ .operator i) : (u.setOwner t o).Agree := by
  intro j x
  rw [setOwner_strips, setOwner_get, h j x]
  split
  next hx => rw [hx]; exact iff_of_false (hold j) (hnew j)
  next => exact Iff.rfl

/-- A hold ends: the strip drops its target, and the target is OPERATOR no more. -/
theorem agree_release {i : Strip} {t : Target} {k : Option StuckTimer} {r : StripRecord} {o : Owner} (h : u.Agree)
    (ht : u.strips[i].state = .touched t k) (hr : latchedTarget r = none) (hnew : ∀ i, o ≠ .operator i) :
    ((u.setOwner t o).setStrip i r).Agree := by
  intro j x
  rw [setStrip_get, setStrip_owners, setOwner_strips, setOwner_get]
  have hheld : ∀ x, u.owners[x] = .operator i ↔ x = t := fun x => by
    rw [← h i x, latched_some ht, Option.some.injEq, eq_comm]
  by_cases hj : j = i <;> by_cases hx : x = t
  · rw [if_pos hj, if_pos hx, hr]
    exact iff_of_false nofun (hnew j)
  · rw [if_pos hj, if_neg hx, hr, hj, hheld x]
    exact iff_of_false nofun hx
  · rw [if_neg hj, if_pos hx, h j x, hx, (hheld t).mpr rfl]
    exact iff_of_false (fun e => hj (Owner.operator.inj e).symm) (hnew j)
  · rw [if_neg hj, if_neg hx]
    exact h j x

/-- A hold begins: an IDLE or BLOCKED strip claims a target that no strip holds. -/
theorem agree_claim {i : Strip} {t : Target} {r : StripRecord} (h : u.Agree) (hfree : latchedTarget u.strips[i] = none)
    (hold : ∀ i, u.owners[t] ≠ .operator i) (hr : latchedTarget r = some t) :
    ((u.setStrip i r).setOwner t (.operator i)).Agree := by
  intro j x
  rw [setOwner_strips, setStrip_get, setOwner_get, setStrip_owners]
  by_cases hj : j = i <;> by_cases hx : x = t
  · rw [if_pos hj, if_pos hx, hr, hx, hj]
    exact iff_of_true rfl rfl
  · rw [if_pos hj, if_neg hx, hr, hj, ← h i x, hfree]
    exact iff_of_false (fun e => hx (Option.some.inj e).symm) nofun
  · rw [if_neg hj, if_pos hx, h j x, hx]
    exact iff_of_false (hold j) fun e => hj (Owner.operator.inj e).symm
  · rw [if_neg hj, if_neg hx]
    exact h j x

/-- What decides agreement is each strip's latched target and which targets are OPERATOR with which strip. -/
theorem agree_congr {v : Ownership} (h : u.Agree)
    (hstrips : ∀ i : Strip, latchedTarget v.strips[i] = latchedTarget u.strips[i])
    (howners : ∀ (t : Target) (i : Strip), v.owners[t] = .operator i ↔ u.owners[t] = .operator i) : v.Agree :=
  fun i t => by rw [hstrips, howners]; exact h i t

/-! ### Reports -/

theorem falls_agree (words : Vector Word16 16) (L : List Strip) (h : u.Agree) :
    (L.foldl (fallPass words) u).Agree := by
  induction L generalizing u with
  | nil => exact h
  | cons i L ih => exact ih (fallPass_agree h i)

theorem heldRecord_latched (r : StripRecord) (p : Nat) : latchedTarget (heldRecord r p) = latchedTarget r := by
  unfold heldRecord latchedTarget
  cases hs : r.state <;> simp [hs]

theorem holds_agree (words : Vector Word16 16) {L : List Strip} (hn : L.Nodup) (h : u.Agree) :
    (L.foldl (holdPass words) u).Agree := by
  obtain ⟨hstrips, hrest⟩ := holds_spec words L hn u
  refine agree_congr h (fun i => ?_) fun t i => by rw [hrest]
  rw [hstrips]
  split
  · exact heldRecord_latched _ _
  · rfl

theorem touchRise_agree {i : Strip} (p : Nat) (h : u.Agree) (hidle : u.strips[i].state = .idle) :
    (u.touchRise i p).Agree := by
  have hfree := latched_none (.inl hidle)
  unfold Ownership.touchRise
  split
  next t ht => exact agree_claim h hfree ((claimable_iff u i t).mp ht).2.1 rfl
  next => exact agree_setStrip h hfree.symm

/-- The rises keep agreement while the strips still to rise are IDLE. -/
theorem rises_agree (before : Ownership) (words : Vector Word16 16) {L : List Strip} (hn : L.Nodup) (h : u.Agree)
    (hidle : ∀ j ∈ L, before.rises words j → u.strips[j].state = .idle) :
    (L.foldl (risePass before words) u).Agree := by
  induction L generalizing u with
  | nil => exact h
  | cons i L ih =>
    obtain ⟨hi, hn⟩ := List.nodup_cons.mp hn
    rw [List.foldl_cons]
    by_cases hr : before.rises words i
    · rw [risePass_rises hr]
      refine ih hn (touchRise_agree _ h (hidle i List.mem_cons_self hr)) fun j hj hrises => ?_
      rw [(touchRise_spec u i _).1 j, if_neg fun e : j = i => hi (e ▸ hj)]
      exact hidle j (List.mem_cons_of_mem i hj) hrises
    · rw [risePass_not hr]
      exact ih hn h fun j hj => hidle j (List.mem_cons_of_mem i hj)

theorem allStrips_nodup : allStrips.Nodup := List.nodup_finRange 16

theorem mem_allStrips (i : Strip) : i ∈ allStrips := List.mem_finRange i

/-- A strip that was IDLE before a report is IDLE still when its rises begin (R109). -/
theorem held_idle (words : Vector Word16 16) (h : u.Agree) {j : Strip} (hj : u.strips[j].state = .idle) :
    (allStrips.foldl (holdPass words) (allStrips.foldl (fallPass words) u)).strips[j].state = .idle := by
  obtain ⟨hfallen, -⟩ := falls_spec words allStrips h
  obtain ⟨hheld, -⟩ := holds_spec words allStrips allStrips_nodup (allStrips.foldl (fallPass words) u)
  have hfell : (allStrips.foldl (fallPass words) u).strips[j].state = .idle := by
    rw [hfallen]
    split
    · rfl
    · exact hj
  rw [hheld]
  split
  · unfold heldRecord
    rw [hfell]
    exact hfell
  · exact hfell

theorem takeReport_agree (words : Vector Word16 16) (h : u.Agree) : (u.takeReport words).Agree :=
  rises_agree u words allStrips_nodup (holds_agree words allStrips_nodup (falls_agree words _ h))
    fun _ _ hr => held_idle words h hr.2

theorem absentPass_strips (words : Vector Word16 16) (i j : Strip) :
    (absentPass words u i).strips[j] =
      if j = i ∧ wordTouch words[i] = true then ⟨.blocked, wordPosition words[i]⟩ else u.strips[j] := by
  unfold absentPass
  split
  next hw => simp only [hw, and_true]; exact setStrip_get u i j _
  next hw => simp only [hw, and_false, if_false, Bool.false_eq_true]

theorem absentPass_frame (words : Vector Word16 16) (u : Ownership) (i : Strip) :
    absentPass words u i = { u with strips := (absentPass words u i).strips } := by
  unfold absentPass
  split <;> rfl

/-- The first report after absence: each touched strip BLOCKED, and nothing else (R116). -/
theorem absentPasses_spec (words : Vector Word16 16) (L : List Strip) (u : Ownership) :
    (∀ j : Strip, (L.foldl (absentPass words) u).strips[j] =
      if j ∈ L ∧ wordTouch words[j] = true then ⟨.blocked, wordPosition words[j]⟩ else u.strips[j])
    ∧ L.foldl (absentPass words) u = { u with strips := (L.foldl (absentPass words) u).strips } := by
  induction L generalizing u with
  | nil => exact ⟨fun j => by simp, rfl⟩
  | cons i L ih =>
    obtain ⟨hstrips, hrest⟩ := ih (absentPass words u i)
    rw [List.foldl_cons]
    refine ⟨fun j => ?_, ?_⟩
    · rw [hstrips, absentPass_strips]
      by_cases hj : j = i
      · subst hj
        cases wordTouch words[j] <;> simp
      · simp [hj]
    · rw [hrest, absentPass_frame words u i]

theorem takeFirstReport_agree (words : Vector Word16 16) (h : u.Agree)
    (hidle : ∀ i : Strip, u.strips[i].state = .idle) : (u.takeFirstReport words).Agree := by
  obtain ⟨hstrips, hrest⟩ := absentPasses_spec words allStrips u
  refine agree_congr h (fun i => ?_) fun t i => by unfold Ownership.takeFirstReport; rw [hrest]
  unfold Ownership.takeFirstReport
  rw [hstrips, latched_none (.inl (hidle i))]
  split
  · rfl
  · exact latched_none (.inl (hidle i))

/-! ### Surface loss -/

/-- The words of a report that touches no strip. -/
def untouchedWords : Vector Word16 16 :=
  Vector.replicate 16 0

theorem wordTouch_untouched (i : Strip) : wordTouch untouchedWords[i] = false := by
  unfold untouchedWords
  rw [Fin.getElem_fin, Vector.getElem_replicate]
  rfl

/-- Every strip falls at a surface loss as in a report that touches none (R115). -/
theorem falls_untouched (u : Ownership) :
    allStrips.foldl Ownership.touchFall u = allStrips.foldl (fallPass untouchedWords) u := by
  have hpass : Ownership.touchFall = fallPass untouchedWords := by
    funext u i
    unfold fallPass
    rw [wordTouch_untouched]
    rfl
  rw [hpass]

theorem loss_strips (h : u.Agree) (i : Strip) :
    (allStrips.foldl Ownership.touchFall u).strips[i] = ⟨.idle, u.strips[i].lastPosition⟩ := by
  rw [falls_untouched, (falls_spec untouchedWords allStrips h).1 i]
  exact if_pos ⟨mem_allStrips i, wordTouch_untouched i⟩

theorem loss_agree (h : u.Agree) : (allStrips.foldl Ownership.touchFall u).Agree := by
  rw [falls_untouched]
  exact falls_agree _ _ h

/-! ### The other changes -/

theorem retime_latched (r : StripRecord) (old new : Nat) : latchedTarget (r.retime old new) = latchedTarget r := by
  unfold StripRecord.retime
  split
  next hs =>
    rw [latched_some hs]
    split
    · rfl
    · split <;> rfl
  all_goals rfl

theorem retime_idle {r : StripRecord} (old new : Nat) (h : r.state = .idle) : r.retime old new = r := by
  unfold StripRecord.retime
  rw [h]

theorem tick_latched (r : StripRecord) : latchedTarget r.tick = latchedTarget r := by
  unfold StripRecord.tick latchedTarget
  cases hs : r.state with
  | touched t k => cases k <;> simp [hs]
  | idle => simp [hs]
  | blocked => simp [hs]

theorem tick_idle {r : StripRecord} (h : r.state = .idle) : r.tick = r := by
  unfold StripRecord.tick
  rw [h]

theorem tick_operator (o : Owner) (i : Strip) : o.tick = .operator i ↔ o = .operator i := by
  cases o <;> simp [Owner.tick]

theorem unparked_operator (u : Ownership) (t : Target) (i : Strip) :
    u.unparked t = .operator i ↔ u.owners[t] = .operator i := by
  unfold Ownership.unparked
  cases u.owners[t] with
  | parked => exact iff_of_false (released_ne_operator _ _ _) nofun
  | _ => exact Iff.rfl

end Agree

/-! ### Strips and owners, the surface present or not (R105, R115) -/

/-- Strips and owners agree, and with the surface not present every strip is IDLE. -/
def OwnLegal (u : Ownership) (present : Bool) : Prop :=
  u.Agree ∧ (present = false → ∀ i : Strip, u.strips[i].state = .idle)

theorem stripsOwn_iff (s : State) : StripsOwnTheirTargets s ↔ OwnLegal s.own s.surface.present :=
  Iff.rfl

section OwnLegal

variable {u : Ownership} {present : Bool}

/-- With the surface absent no target is OPERATOR. -/
theorem present_of_operator (h : OwnLegal u present) {t : Target} {i : Strip} (ho : u.owners[t] = .operator i) :
    present = true := by
  refine eq_true_of_ne_false fun habsent => ?_
  have hidle := h.2 habsent i
  exact absurd ((h.1 i t).mpr ho) (by rw [latched_none (.inl hidle)]; nofun)

theorem present_of_touched (h : OwnLegal u present) {t : Target} {k : Option StuckTimer} {i : Strip}
    (ht : u.strips[i].state = .touched t k) : present = true :=
  present_of_operator h ((h.1 i t).mp (latched_some ht))

/-- A strip that holds an OPERATOR target is TOUCHED with it. -/
theorem touched_of_operator (h : u.Agree) {t : Target} {i : Strip} (ho : u.owners[t] = .operator i) :
    ∃ k, u.strips[i].state = .touched t k := by
  have hl := (h i t).mpr ho
  unfold latchedTarget at hl
  split at hl
  next hs => cases hl; exact ⟨_, hs⟩
  next => cases hl
  next => cases hl

/-- A hold ends with the strip BLOCKED (R114, R119). -/
theorem ownLegal_block {i : Strip} {t : Target} {k : Option StuckTimer} {o : Owner} (h : OwnLegal u present)
    (ht : u.strips[i].state = .touched t k) (hnew : ∀ i, o ≠ .operator i) :
    OwnLegal ((u.setOwner t o).setStrip i { u.strips[i] with state := .blocked }) present :=
  ⟨agree_release h.1 ht rfl hnew, fun habsent => absurd (habsent.symm.trans (present_of_touched h ht)) (by decide)⟩

theorem ownLegal_setOwner {t : Target} {o : Owner} (h : OwnLegal u present) (hold : ∀ i, u.owners[t] ≠ .operator i)
    (hnew : ∀ i, o ≠ .operator i) : OwnLegal (u.setOwner t o) present :=
  ⟨agree_setOwner h.1 hold hnew, h.2⟩

/-- What decides is the strips and which targets are OPERATOR with which strip. -/
theorem ownLegal_congr {v : Ownership} (h : OwnLegal u present) (hstrips : v.strips = u.strips)
    (howners : ∀ (t : Target) (i : Strip), v.owners[t] = .operator i ↔ u.owners[t] = .operator i) :
    OwnLegal v present :=
  ⟨agree_congr h.1 (fun i => by rw [hstrips]) howners, fun habsent i => by rw [hstrips]; exact h.2 habsent i⟩

theorem showReset_strips (u : Ownership) : u.showReset.strips = u.strips := by
  unfold Ownership.showReset
  rfl

theorem showReset_bank (u : Ownership) : u.showReset.bank = u.bank := by
  unfold Ownership.showReset
  rfl

theorem showReset_owners (u : Ownership) (t : Target) : u.showReset.owners[t] = u.unparked t := by
  simp only [Ownership.showReset, Fin.getElem_fin, Vector.getElem_ofFn, Fin.eta]

theorem ownLegal_showReset (h : OwnLegal u present) : OwnLegal u.showReset present :=
  ownLegal_congr h (showReset_strips u) fun t i => by rw [showReset_owners]; exact unparked_operator u t i

theorem ownLegal_surfaceConfig (stuck glide : Nat) (h : OwnLegal u present) :
    OwnLegal { u with
      stuckTime := stuck, glideTime := glide
      strips := Vector.ofFn fun i : Strip => u.strips[i].retime u.stuckTime stuck } present := by
  refine ⟨agree_congr h.1 (fun i => ?_) fun _ _ => Iff.rfl, fun habsent i => ?_⟩
  · simp only [Fin.getElem_fin, Vector.getElem_ofFn]
    exact retime_latched _ _ _
  · simp only [Fin.getElem_fin, Vector.getElem_ofFn]
    have hi := h.2 habsent i
    exact (congrArg StripRecord.state (retime_idle _ _ hi)).trans hi

theorem ownLegal_tick (h : OwnLegal u present) : OwnLegal u.tick present := by
  have hstrip : ∀ i : Strip, u.tick.strips[i] = u.strips[i].tick := fun i => by
    simp only [Ownership.tick, Fin.getElem_fin, Vector.getElem_ofFn]
  refine ⟨agree_congr h.1 (fun i => ?_) fun t i => ?_, fun habsent i => ?_⟩
  · rw [hstrip]
    exact tick_latched _
  · simp only [Ownership.tick, Fin.getElem_fin, Vector.getElem_ofFn]
    exact tick_operator _ i
  · have hi := h.2 habsent i
    rw [hstrip, tick_idle hi]
    exact hi

end OwnLegal

/-! ### A park (R119) -/

section Park

variable {s : State} {t : Target} {position time : Nat}

theorem parkTarget_own_of_operator {i : Strip} (ho : s.own.owners[t] = .operator i) :
    (parkTarget t position time s).own =
      (s.own.setOwner t (.parked position (effective s t) (time * 100) 0)).setStrip i
        { s.own.strips[i] with state := .blocked } := by
  unfold parkTarget
  rw [ho]
  rfl

theorem parkTarget_own_of_not_operator (ho : ∀ i, s.own.owners[t] ≠ .operator i) :
    (parkTarget t position time s).own = s.own.setOwner t (.parked position (effective s t) (time * 100) 0) := by
  unfold parkTarget
  cases h : s.own.owners[t] with
  | operator i => exact absurd h (ho i)
  | _ => rfl

theorem ownLegal_park {present : Bool} (h : OwnLegal s.own present) :
    OwnLegal (parkTarget t position time s).own present := by
  by_cases ho : ∃ i, s.own.owners[t] = .operator i
  · obtain ⟨i, ho⟩ := ho
    obtain ⟨k, hk⟩ := touched_of_operator h.1 ho
    rw [parkTarget_own_of_operator ho]
    exact ownLegal_block h hk fun _ => nofun
  · have ho := not_exists.mp ho
    rw [parkTarget_own_of_not_operator ho]
    exact ownLegal_setOwner h ho fun _ => nofun

theorem parkTarget_bank : (parkTarget t position time s).own.bank = s.own.bank := by
  by_cases ho : ∃ i, s.own.owners[t] = .operator i
  · obtain ⟨i, ho⟩ := ho
    rw [parkTarget_own_of_operator ho]
    rfl
  · rw [parkTarget_own_of_not_operator (not_exists.mp ho)]
    rfl

end Park

/-! ### Every change -/

theorem ownLegal_orderChange {kind : Byte} {s t : State} (hc : OrderChange kind s t)
    (h : OwnLegal s.own s.surface.present) : OwnLegal t.own t.surface.present := by
  cases hc with
  | showReset => exact ownLegal_showReset h
  | park => exact ownLegal_park h
  | unpark ho => exact ownLegal_setOwner h (by rw [ho]; nofun) (released_ne_operator _ _)
  | surfaceConfig => exact ownLegal_surfaceConfig _ _ h
  | bankAssign => exact ownLegal_congr h rfl fun _ _ => Iff.rfl
  | pageSelect => exact ownLegal_congr h rfl fun _ _ => Iff.rfl
  | _ => exact h

theorem report_ownLegal (scan : Byte) (words : Vector Word16 16) {s : State} (h : OwnLegal s.own s.surface.present) :
    OwnLegal (actSurfaceReport scan words s).own true := by
  refine ⟨?_, nofun⟩
  change (if s.surface.present then s.own.takeReport words else s.own.takeFirstReport words).Agree
  split
  next => exact takeReport_agree words h.1
  next habsent => exact takeFirstReport_agree words h.1 (h.2 (Bool.eq_false_iff.mpr habsent))

theorem ownLegal_change {s t : State} (hc : Change s t) (h : OwnLegal s.own s.surface.present) :
    OwnLegal t.own t.surface.present := by
  cases hc with
  | order hc => exact ownLegal_orderChange hc h
  | report => exact report_ownLegal _ _ h
  | surfaceLost =>
    dsimp only
    exact ⟨loss_agree h.1, fun _ i => by rw [loss_strips h.1 i]⟩
  | stuck ht => exact ownLegal_block h ht (released_ne_operator _ _)
  | glideEnded hdue =>
    refine ownLegal_setOwner h (fun i ho => ?_) fun _ => nofun
    unfold Ownership.glideDue at hdue
    rw [ho] at hdue
    cases hdue
  | _ => exact h

theorem ownLegal_advance {s : State} (h : OwnLegal s.own s.surface.present) :
    OwnLegal (advance s).own (advance s).surface.present := by
  have hpresent : (advance s).surface.present = s.surface.present := Option.isSome_map
  rw [hpresent]
  exact ownLegal_tick h

theorem reset_agree : Ownership.reset.Agree := by
  intro i t
  simp only [Ownership.reset, Fin.getElem_fin, Vector.getElem_replicate]
  exact iff_of_false nofun nofun

theorem reset_ownLegal (present : Bool) : OwnLegal Ownership.reset present := by
  refine ⟨reset_agree, fun _ i => ?_⟩
  simp only [Ownership.reset, Fin.getElem_fin, Vector.getElem_replicate]

/-! ### Targets distinct on a page (R106) -/

/-- Within one page of a bank table a target appears at most once. -/
def BankDistinct (bank : Vector (Vector (Option Target) 16) 4) : Prop :=
  ∀ (page : Fin 4) (i j : Strip) (t : Target), bank[page][i] = some t → bank[page][j] = some t → i = j

theorem bank_set_get (bank : Vector (Vector (Option Target) 16) 4) (page p : Fin 4) (strip i : Strip)
    (entry : Option Target) :
    (bank.set page (bank[page].set strip entry))[p][i] = if p = page ∧ i = strip then entry else bank[p][i] := by
  by_cases hp : p = page
  · subst hp
    by_cases hi : i = strip
    · subst hi
      simp
    · have hne : strip.val ≠ i.val := fun e => hi (Fin.ext e.symm)
      simp [hne, hi]
  · have hne : page.val ≠ p.val := fun e => hp (Fin.ext e.symm)
    simp [hne, hp]

theorem onOtherStrip_iff {bank : Vector (Vector (Option Target) 16) 4} {page : Fin 4} {strip : Strip} {t : Target} :
    onOtherStrip bank page strip t = true ↔ ∃ j, j ≠ strip ∧ bank[page][j] = some t := by
  simp [onOtherStrip, allStrips]

theorem bankAssign_distinct {bank : Vector (Vector (Option Target) 16) 4} {page : Fin 4} {strip : Strip}
    {entry : Option Target} (h : BankDistinct bank) (hfree : entry.any (onOtherStrip bank page strip) = false) :
    BankDistinct (bank.set page (bank[page].set strip entry)) := by
  have hother : ∀ (j : Strip) (t : Target), entry = some t → bank[page][j] = some t → j = strip := by
    rintro j t rfl hj
    refine Decidable.byContradiction fun hne => ?_
    exact absurd (onOtherStrip_iff.mpr ⟨j, hne, hj⟩) (Bool.eq_false_iff.mp hfree)
  intro p i j t hi hj
  rw [bank_set_get] at hi hj
  by_cases hp : p = page
  · subst hp
    simp only [true_and] at hi hj
    by_cases his : i = strip <;> by_cases hjs : j = strip
    · exact his.trans hjs.symm
    · rw [if_pos his] at hi
      rw [if_neg hjs] at hj
      exact absurd (hother j t hi hj) hjs
    · rw [if_neg his] at hi
      rw [if_pos hjs] at hj
      exact absurd (hother i t hj hi) his
    · rw [if_neg his] at hi
      rw [if_neg hjs] at hj
      exact h p i j t hi hj
  · simp only [hp, false_and, if_false] at hi hj
    exact h p i j t hi hj

theorem reset_distinct : BankDistinct Ownership.reset.bank := by
  intro page i j t hi
  simp [Ownership.reset] at hi

theorem fallPass_bank (words : Vector Word16 16) (u : Ownership) (i : Strip) :
    (fallPass words u i).bank = u.bank ∧ (u.touchFall i).bank = u.bank := by
  have hfall : (u.touchFall i).bank = u.bank := by
    unfold Ownership.touchFall
    split <;> rfl
  unfold fallPass
  split
  · exact ⟨rfl, hfall⟩
  · exact ⟨hfall, hfall⟩

theorem foldl_bank {pass : Ownership → Strip → Ownership} (hpass : ∀ u i, (pass u i).bank = u.bank)
    (L : List Strip) (u : Ownership) : (L.foldl pass u).bank = u.bank := by
  induction L generalizing u with
  | nil => rfl
  | cons i L ih => exact (ih (pass u i)).trans (hpass u i)

theorem report_bank (scan : Byte) (words : Vector Word16 16) (s : State) :
    (actSurfaceReport scan words s).own.bank = s.own.bank := by
  change (if s.surface.present then s.own.takeReport words else s.own.takeFirstReport words).bank = _
  split
  · have hrise : ∀ u i, (risePass s.own words u i).bank = u.bank := fun u i => by
      by_cases hr : s.own.rises words i
      · rw [risePass_rises hr, (touchRise_spec u i _).2.2]
      · rw [risePass_not hr]
    have hhold : ∀ u i, (holdPass words u i).bank = u.bank := fun u i => by rw [(holdPass_spec words u i).2]
    unfold Ownership.takeReport
    rw [foldl_bank hrise, foldl_bank hhold, foldl_bank fun u i => (fallPass_bank words u i).1]
  · unfold Ownership.takeFirstReport
    rw [(absentPasses_spec words allStrips s.own).2]

theorem advance_bank (s : State) : (advance s).own.bank = s.own.bank := by
  unfold advance Ownership.tick
  rfl

theorem pagesDistinct_change {s t : State} (hc : Change s t) (h : BankDistinct s.own.bank) :
    BankDistinct t.own.bank := by
  cases hc with
  | order hc =>
    cases hc with
    | showReset =>
      dsimp only
      rw [showReset_bank]
      exact h
    | bankAssign hfree => exact bankAssign_distinct h hfree
    | park =>
      dsimp only
      rw [parkTarget_bank]
      exact h
    | _ => exact h
  | report => rw [report_bank]; exact h
  | surfaceLost =>
    dsimp only
    rw [foldl_bank fun u i => (fallPass_bank untouchedWords u i).2]
    exact h
  | _ => exact h

/-- Settles O58: agreement of strips and owners, and of targets on a page, each kept by every change, by the passing of
time and by the resets. -/
theorem ownershipKept : Obligations.OwnershipKept := by
  intro s t hs
  refine ⟨fun h => ?strips, fun h => ?pages⟩
  case strips =>
    exact (stripsOwn_iff t).mpr (step_keeps (Inv := fun s => OwnLegal s.own s.surface.present) ownLegal_change
      (fun _ _ h => h) (fun _ _ h => h) (fun _ _ h => ownLegal_advance h) (fun _ => reset_ownLegal _)
      (fun _ _ _ => reset_ownLegal _) ((stripsOwn_iff s).mp h) hs)
  case pages =>
    exact step_keeps (Inv := fun s => BankDistinct s.own.bank) pagesDistinct_change (fun _ _ h => h)
      (fun _ _ h => h) (fun s _ h => by rw [advance_bank]; exact h) (fun _ => reset_distinct)
      (fun _ _ _ => reset_distinct) h hs

end Sys2Proof.Machine

/-! Mutes, output map, supervision, counts and the full reset under every change (R2, R126, R136, R138, R144, R164, R170,
R172, R180). -/

namespace Sys2Proof.Machine

open Sys2Proof.Safety

/-! ### Mute ramps (R134–R138) -/

section Ramps

theorem startMuting_agrees (start rate : Nat) (stopRate : Bool) :
    RampAgrees true (startMuting start rate stopRate) := by
  unfold startMuting
  split <;> rfl

theorem startOpening_agrees (start rate : Nat) : RampAgrees false (startOpening start rate) := by
  unfold startOpening
  split <;> rfl

theorem evaluatedRamp_agrees {times : MuteTimes} {request counts request' counts' : Bool} {ramp : MuteRamp}
    (h : RampAgrees request ramp) : RampAgrees request' (evaluatedRamp times request counts request' counts' ramp) := by
  unfold evaluatedRamp
  cases request <;> cases request' <;> dsimp only
  · exact h
  · split
    · exact startMuting_agrees _ _ _
    · exact startMuting_agrees _ _ _
  · exact startOpening_agrees _ _
  · split
    · split
      · exact startMuting_agrees _ _ _
      · exact h
    all_goals exact h

/-- Every ramp of a mute unit agrees with its request. -/
structure RampsAgree (u : MuteUnit) : Prop where
  ramp (c : Channel) : RampAgrees (u.request c) u.ramps[c]

theorem reevaluate_agrees {before after : MuteUnit} (h : RampsAgree before) (hramps : after.ramps = before.ramps) :
    RampsAgree (reevaluate before after) := by
  constructor
  intro c
  rw [reevaluate_request, reevaluate_ramps_get]
  unfold rampAfter
  rw [hramps]
  exact evaluatedRamp_agrees (h.ramp c)

theorem setSubject_ramps (u : MuteUnit) (x : MuteSubject) (m : MuteState) : (u.setSubject x m).ramps = u.ramps := by
  cases x <;> rfl

theorem setSubject_groups (u : MuteUnit) (x : MuteSubject) (m : MuteState) : (u.setSubject x m).groups = u.groups := by
  cases x <;> rfl

/-- What setting one mute subject leaves alone, the mute actions of a firing leave alone before the evaluation. -/
theorem foldl_setSubject {α : Type} {view : MuteUnit → α} (hset : ∀ u x m, view (u.setSubject x m) = view u)
    (actions : List MuteAction) (u : MuteUnit) :
    view (actions.foldl (fun v a => v.setSubject a.subject a.state) u) = view u := by
  induction actions generalizing u with
  | nil => rfl
  | cons a rest ih => exact (ih _).trans (hset u a.subject a.state)

theorem applyActions_agrees (actions : List MuteAction) {u : MuteUnit} (h : RampsAgree u) :
    RampsAgree (u.applyActions actions) := by
  unfold MuteUnit.applyActions
  exact reevaluate_agrees h (foldl_setSubject (view := MuteUnit.ramps) setSubject_ramps actions u)

theorem fire_mute (r : CueRecord) (s : State) : (fire r s).mute = s.mute.applyActions r.actions := by
  unfold fire
  rw [fireMoves_eq r s]
  rfl

theorem request_of_ramps (u : MuteUnit) (ramps : Vector MuteRamp 64) (c : Channel) :
    ({ u with ramps := ramps }).request c = u.request c := by
  simp only [MuteUnit.request, MuteUnit.groupMuted, MuteUnit.stopCounts, MuteUnit.stopActive]

theorem request_of_times (u : MuteUnit) (times : MuteTimes) (c : Channel) :
    ({ u with times := times }).request c = u.request c := by
  simp only [MuteUnit.request, MuteUnit.groupMuted, MuteUnit.stopCounts, MuteUnit.stopActive]

theorem request_of_groups (u : MuteUnit) (groups : Vector (List Group) 64) (c : Channel) :
    ({ u with groups := groups }).request c = u.request c := by
  simp only [MuteUnit.request, MuteUnit.groupMuted, MuteUnit.stopCounts, MuteUnit.stopActive]

theorem ended_agrees {request : Bool} {ramp : MuteRamp} (h : RampAgrees request ramp) :
    RampAgrees request ramp.ended := by
  cases ramp <;> exact h

theorem tick_agrees {request : Bool} {ramp : MuteRamp} (h : RampAgrees request ramp) :
    RampAgrees request ramp.tick := by
  cases ramp <;> exact h

theorem rampEnded_agrees {u : MuteUnit} (c : Channel) (h : RampsAgree u) :
    RampsAgree { u with ramps := u.ramps.set c u.ramps[c].ended } := by
  constructor
  intro d
  rw [request_of_ramps]
  by_cases hd : d = c
  · subst hd
    simpa using ended_agrees (h.ramp d)
  · have hne : c.val ≠ d.val := fun e => hd (Fin.ext e.symm)
    simpa [hne] using h.ramp d

theorem muteTick_agrees {u : MuteUnit} (h : RampsAgree u) : RampsAgree u.tick := by
  constructor
  intro c
  unfold MuteUnit.tick
  rw [request_of_ramps]
  simpa using tick_agrees (h.ramp c)

theorem showReset_agrees {u : MuteUnit} (h : RampsAgree u) : RampsAgree u.showReset := by
  unfold MuteUnit.showReset
  exact reevaluate_agrees h (by dsimp only)

theorem handOver_agrees {u : MuteUnit} (walk : List CueRecord) (h : RampsAgree u) : RampsAgree (u.handOver walk) := by
  unfold MuteUnit.handOver
  exact reevaluate_agrees h (by dsimp only)

theorem ramps_orderChange {kind : Byte} {s t : State} (hc : OrderChange kind s t) (h : RampsAgree s.mute) :
    RampsAgree t.mute := by
  cases hc with
  | go => dsimp only; rw [fire_mute]; exact applyActions_agrees _ h
  | stopSet => dsimp only; exact reevaluate_agrees h (by dsimp only)
  | stopRelease => dsimp only; exact reevaluate_agrees h (by dsimp only)
  | showReset => dsimp only; exact showReset_agrees h
  | groupAssign => exact ⟨fun c => by rw [request_of_groups]; exact h.ramp c⟩
  | muteSet => dsimp only; exact reevaluate_agrees h (setSubject_ramps _ _ _)
  | muteGroupAssign => dsimp only; exact reevaluate_agrees h (by dsimp only)
  | exemptSet => dsimp only; exact reevaluate_agrees h (by dsimp only)
  | muteConfig => exact ⟨fun c => by rw [request_of_times]; exact h.ramp c⟩
  | _ => exact h

theorem ramps_change {s t : State} (hc : Change s t) (h : RampsAgree s.mute) : RampsAgree t.mute := by
  cases hc with
  | order hc => exact ramps_orderChange hc h
  | fired => dsimp only; rw [fire_mute]; exact applyActions_agrees _ h
  | resolved => dsimp only; exact handOver_agrees _ h
  | rampEnded => dsimp only; exact rampEnded_agrees _ h
  | stopLine => dsimp only; exact reevaluate_agrees h (by dsimp only)
  | _ => exact h

theorem reset_request (c : Channel) : MuteUnit.reset.request c = false := by
  simp [MuteUnit.request, MuteUnit.reset, MuteUnit.groupMuted, MuteUnit.stopCounts, MuteUnit.stopActive, lineLow]

theorem reset_ramps : RampsAgree MuteUnit.reset := by
  constructor
  intro c
  rw [reset_request]
  simp [MuteUnit.reset]

end Ramps

/-! ### Membership lists (R126) -/

section Memberships

/-- A membership list is short and ascending. -/
def MembersLegal (groups : List Group) : Prop :=
  groups.length ≤ 3 ∧ groups.Pairwise (· < ·)

theorem ascendingGroups_pairwise (groups : List Group) : (ascendingGroups groups).Pairwise (· < ·) :=
  (List.pairwise_lt_finRange 16).filter _

theorem mem_ascendingGroups {groups : List Group} {g : Group} : g ∈ ascendingGroups groups ↔ g ∈ groups := by
  simp [ascendingGroups]

theorem ascendingGroups_legal {groups : List Group} (h : groups.length ≤ 3) :
    MembersLegal (ascendingGroups groups) := by
  have hnodup : (ascendingGroups groups).Nodup := (List.nodup_finRange 16).filter _
  have hsub : ascendingGroups groups ⊆ groups := fun _ hg => mem_ascendingGroups.mp hg
  exact ⟨Nat.le_trans (hnodup.length_le_of_subset hsub) h, ascendingGroups_pairwise groups⟩

theorem memberships_set {lists : Vector (List Group) 64} {c : Channel} {groups : List Group}
    (h : ∀ c : Channel, MembersLegal lists[c]) (hnew : MembersLegal groups) (d : Channel) :
    MembersLegal (lists.set c groups)[d] := by
  by_cases hd : d = c
  · subst hd
    simpa using hnew
  · have hne : c.val ≠ d.val := fun e => hd (Fin.ext e.symm)
    simpa [hne] using h d

theorem applyActions_groups (actions : List MuteAction) (u : MuteUnit) :
    (u.applyActions actions).groups = u.groups := by
  unfold MuteUnit.applyActions reevaluate
  exact foldl_setSubject (view := MuteUnit.groups) setSubject_groups actions u

theorem memberships_change {s t : State} (hc : Change s t) (h : ∀ c : Channel, MembersLegal s.mute.groups[c]) :
    ∀ c : Channel, MembersLegal t.mute.groups[c] := by
  cases hc with
  | order hc =>
    cases hc with
    | go => dsimp only; rw [fire_mute, applyActions_groups]; exact h
    | muteSet => exact fun c => by dsimp only [reevaluate]; rw [setSubject_groups]; exact h c
    | groupAssign hcount => exact memberships_set h (ascendingGroups_legal hcount)
    | _ => exact h
  | fired => dsimp only; rw [fire_mute, applyActions_groups]; exact h
  | _ => exact h

theorem advance_groups (s : State) : (advance s).mute.groups = s.mute.groups := by
  unfold advance MuteUnit.tick
  rfl

theorem reset_memberships (c : Channel) : MembersLegal MuteUnit.reset.groups[c] := by
  simp [MuteUnit.reset, MembersLegal]

end Memberships

/-! ### The output map (R143, R144) -/

section Windows

variable {ws : Vector (Option Window) 8}

theorem covers_iff (w : Window) (c : Channel) : w.covers c = true ↔ w.first ≤ c.val + 1 ∧ c.val + 1 ≤ w.last := by
  simp [Window.covers]

/-- The window that maps a channel is enabled and covers it. -/
theorem mappingWindow_mem {c : Channel} {w : Window} (h : mappingWindow ws c = some w) :
    (∃ n : Fin 8, ws[n] = some w) ∧ w.covers c = true := by
  obtain ⟨o, ho, hw⟩ := List.exists_of_findSome?_eq_some h
  split at hw
  next v =>
    split at hw
    next hcovers =>
      cases hw
      obtain ⟨n, hn, hget⟩ := Vector.mem_iff_getElem.mp (Vector.mem_toList_iff.mp ho)
      exact ⟨⟨⟨n, hn⟩, hget⟩, hcovers⟩
    next => cases hw
  next => cases hw

theorem slotOf_lt (hlegal : ∀ n : Fin 8, ∀ w ∈ ws[n], WindowLegal w) {c : Channel} {slot : Nat}
    (h : slotOf ws c = some slot) : slot < 128 := by
  obtain ⟨w, hw, rfl⟩ := Option.map_eq_some_iff.mp h
  obtain ⟨⟨n, hn⟩, hcovers⟩ := mappingWindow_mem hw
  obtain ⟨-, -, -, hbase⟩ := hlegal n w hn
  have := (covers_iff w c).mp hcovers
  unfold Window.slot
  omega

theorem mem_feeders {slot : Nat} {c : Channel} : c ∈ feeders ws slot ↔ slotOf ws c = some slot := by
  simp [feeders, allChannels]

/-- A slot is fed by two channels. -/
def FedTwice (ws : Vector (Option Window) 8) (slot : Nat) : Prop :=
  ∃ c d : Channel, c ≠ d ∧ slotOf ws c = some slot ∧ slotOf ws d = some slot

theorem feeders_nodup (ws : Vector (Option Window) 8) (slot : Nat) : (feeders ws slot).Nodup :=
  (List.nodup_finRange 64).filter _

theorem one_lt_feeders_iff {slot : Nat} : 1 < (feeders ws slot).length ↔ FedTwice ws slot := by
  have hnodup := feeders_nodup ws slot
  constructor
  · intro h
    obtain ⟨c, d, rest, hlist⟩ : ∃ c d rest, feeders ws slot = c :: d :: rest := by
      match hl : feeders ws slot, h with
      | c :: d :: rest, _ => exact ⟨c, d, rest, rfl⟩
    refine ⟨c, d, ?_, mem_feeders.mp ?_, mem_feeders.mp ?_⟩
    · rw [hlist] at hnodup
      exact fun e => (List.nodup_cons.mp hnodup).1 (e ▸ List.mem_cons_self)
    · rw [hlist]; exact List.mem_cons_self
    · rw [hlist]; exact List.mem_cons_of_mem c List.mem_cons_self
  · rintro ⟨c, d, hne, hc, hd⟩
    have hsub : [c, d] ⊆ feeders ws slot := by
      intro x hx
      rcases List.mem_cons.mp hx with rfl | hx
      · exact mem_feeders.mpr hc
      · rw [List.mem_singleton.mp hx]; exact mem_feeders.mpr hd
    have hpair : [c, d].Nodup :=
      List.nodup_cons.mpr ⟨fun hc => hne (List.mem_singleton.mp hc), List.pairwise_singleton _ d⟩
    exact hpair.length_le_of_subset hsub

theorem clashSlot_eq_none : clashSlot ws = none ↔ ∀ slot < 128, ¬FedTwice ws slot := by
  simp only [clashSlot, List.find?_eq_none, List.mem_range, decide_eq_true_eq, one_lt_feeders_iff]

/-- Every enabled window in range, and no slot fed by two channels. -/
def WindowsLegal (ws : Vector (Option Window) 8) : Prop :=
  (∀ n : Fin 8, ∀ w ∈ ws[n], WindowLegal w)
    ∧ ∀ c d : Channel, ∀ slot, slotOf ws c = some slot → slotOf ws d = some slot → c = d

theorem windowsLegal_of_noClash (hlegal : ∀ n : Fin 8, ∀ w ∈ ws[n], WindowLegal w) (h : clashSlot ws = none) :
    WindowsLegal ws := by
  refine ⟨hlegal, fun c d slot hc hd => ?_⟩
  refine Decidable.byContradiction fun hne => ?_
  exact clashSlot_eq_none.mp h slot (slotOf_lt hlegal hc) ⟨c, d, hne, hc, hd⟩

theorem windows_set_legal {n : Fin 8} {entry : Option Window} (h : ∀ n : Fin 8, ∀ w ∈ ws[n], WindowLegal w)
    (hentry : ∀ w ∈ entry, WindowLegal w) (k : Fin 8) : ∀ w ∈ (ws.set n entry)[k], WindowLegal w := by
  by_cases hk : k = n
  · subst hk
    simpa using hentry
  · have hne : n.val ≠ k.val := fun e => hk (Fin.ext e.symm)
    simpa [hne] using h k

theorem windows_change {s t : State} (hc : Change s t) (h : WindowsLegal s.out.windows) :
    WindowsLegal t.out.windows := by
  cases hc with
  | order hc =>
    cases hc with
    | windowSet hw hclash =>
      exact windowsLegal_of_noClash (windows_set_legal h.1 fun w h => by cases h; exact hw) hclash
    | windowClear hclash => exact windowsLegal_of_noClash (windows_set_legal h.1 nofun) hclash
    | _ => exact h
  | _ => exact h

theorem reset_windows : WindowsLegal OutputUnit.reset.windows := by
  have hnone : ∀ n : Fin 8, OutputUnit.reset.windows[n] = none := fun n => by simp [OutputUnit.reset]
  refine ⟨fun n w hw => (by rw [hnone] at hw; cases hw), fun c d slot hc => ?_⟩
  obtain ⟨w, hw, -⟩ := Option.map_eq_some_iff.mp hc
  obtain ⟨⟨n, hn⟩, -⟩ := mappingWindow_mem hw
  rw [hnone] at hn
  cases hn

end Windows

/-! ### The link supervisor (R168–R172) -/

section Supervision

/-- Counter, T and question of a running supervision in range. -/
def SupervisionRuns (u : Supervisor) : Prop :=
  u.counter ≤ Config.maxErrors ∧ 1 ≤ u.config.threshold ∧ u.question ≠ 0 ∧ u.window.isSome = true

/-- The link state in agreement with window, counter and T. -/
def LinkLegal (u : Supervisor) : Prop :=
  u.counter ≤ Config.maxErrors ∧ 1 ≤ u.config.threshold ∧ u.question ≠ 0 ∧
    match u.link with
    | .off => u.window = none ∧ u.counter = 0
    | .linked => u.window.isSome ∧ u.counter = 0
    | .degraded => u.window.isSome ∧ 0 < u.counter ∧ u.counter < u.config.threshold
    | .lost => u.window.isSome ∧ 0 < u.counter

/-- The parts of the supervisor that its legality looks at. -/
theorem linkLegal_congr {u v : Supervisor} (h : LinkLegal u) (hcounter : v.counter = u.counter)
    (hthreshold : v.config.threshold = u.config.threshold) (hquestion : v.question = u.question)
    (hwindow : v.window.isSome = u.window.isSome) (hlink : v.link = u.link) : LinkLegal v := by
  unfold LinkLegal at h ⊢
  rw [hcounter, hthreshold, hquestion, hwindow, hlink]
  have hnone : v.window = none ↔ u.window = none := by
    rw [← Option.not_isSome_iff_eq_none, ← Option.not_isSome_iff_eq_none, hwindow]
  rw [hnone]
  exact h

theorem lossAction_sup (s : State) :
    (lossAction s).sup = { s.sup with localMode := (lossAction s).sup.localMode } := by
  unfold lossAction
  split
  · rfl
  · rfl
  · split <;> rfl

theorem relink_link (s : State) : (relink s).sup.link = foundLink s := by
  rcases relink_cases s with ⟨hl, h⟩ | ⟨hl, h⟩ | ⟨hl, h⟩ | ⟨hl, h⟩ <;> rw [h, hl]
  · rfl
  · rfl
  · rw [lossAction_sup]
    rfl

theorem relink_legal {s : State} (h : SupervisionRuns s.sup) : LinkLegal (relink s).sup := by
  obtain ⟨hcounter, hthreshold, hquestion, hwindow⟩ := h
  obtain ⟨hq, hc, hw, hconfig⟩ := relink_sup s
  unfold LinkLegal
  rw [hq, hc, hw, hconfig, relink_link]
  refine ⟨hcounter, hthreshold, hquestion, ?_⟩
  unfold foundLink linkAfter
  by_cases hzero : s.sup.counter = 0
  · rw [if_pos hzero]
    exact ⟨hwindow, hzero⟩
  by_cases hlost : s.sup.config.threshold ≤ s.sup.counter
  · rw [if_neg hzero, if_pos hlost]
    exact ⟨hwindow, Nat.pos_of_ne_zero hzero⟩
  · rw [if_neg hzero, if_neg hlost]
    cases s.sup.link
    case lost => exact ⟨hwindow, Nat.pos_of_ne_zero hzero⟩
    all_goals exact ⟨hwindow, Nat.pos_of_ne_zero hzero, Nat.lt_of_not_le hlost⟩

theorem nextQuestion_ne_zero : ∀ q : Byte, q ≠ 0 → nextQuestion q ≠ 0 := by decide

theorem firstQuestion_ne_zero (seed : Byte) : firstQuestion seed ≠ 0 := by
  unfold firstQuestion
  split
  · decide
  · assumption

theorem countError_le (u : Supervisor) : u.countError.counter ≤ Config.maxErrors :=
  Nat.min_le_left _ _

theorem verdict_runs {u : Supervisor} (v : Verdict) (h : LinkLegal u) :
    SupervisionRuns (u.afterVerdict v).newWindow := by
  obtain ⟨hcounter, hthreshold, hquestion, -⟩ := h
  cases v with
  | good => exact ⟨Nat.le_trans (Nat.sub_le _ _) hcounter, hthreshold, nextQuestion_ne_zero _ hquestion, rfl⟩
  | early => exact ⟨countError_le u, hthreshold, hquestion, rfl⟩
  | wrong => exact ⟨countError_le u, hthreshold, hquestion, rfl⟩

theorem configureSupervision_legal {c : SupervisionConfig} {s : State} (hc : 1 ≤ c.threshold) (h : LinkLegal s.sup) :
    LinkLegal (configureSupervision c s).sup := by
  obtain ⟨hcounter, hthreshold, hquestion, hlink⟩ := h
  unfold configureSupervision
  split
  next => exact ⟨Nat.zero_le _, hc, firstQuestion_ne_zero _, rfl, rfl⟩
  next hwindow _ => exact relink_legal ⟨hcounter, hc, hquestion, hwindow⟩
  next => exact ⟨Nat.zero_le _, hc, hquestion, rfl, rfl⟩
  next hwindow _ =>
    refine ⟨hcounter, hc, hquestion, ?_⟩
    dsimp only
    cases hl : s.sup.link with
    | off => rw [hl] at hlink; exact hlink
    | _ =>
      rw [hl] at hlink
      exact absurd (hwindow.symm.trans hlink.1) (by decide)

theorem linkLegal_change {s t : State} (hc : Change s t) (h : LinkLegal s.sup) : LinkLegal t.sup := by
  cases hc with
  | order hc =>
    cases hc with
    | heartbeat _ hu =>
      subst hu
      exact relink_legal (s := { s with sup := _ }) (verdict_runs _ h)
    | supervisionConfig hthreshold => exact configureSupervision_legal hthreshold h
    | reclaimLinked => exact linkLegal_congr h rfl rfl rfl rfl rfl
    | _ => exact h
  | windowEnded _ hu =>
    subst hu
    obtain ⟨-, hthreshold, hquestion, -⟩ := h
    exact relink_legal (s := { s with sup := _ }) ⟨countError_le s.sup, hthreshold, hquestion, rfl⟩
  | _ => exact h

theorem linkLegal_advance {s : State} (h : LinkLegal s.sup) : LinkLegal (advance s).sup :=
  linkLegal_congr h rfl rfl rfl Option.isSome_map rfl

theorem reset_linkLegal : LinkLegal Supervisor.reset :=
  ⟨Nat.zero_le _, by decide, by decide, rfl, rfl⟩

end Supervision

/-! ### The latch (R178, R180) -/

section Status

variable {P : StatusUnit → Prop} (hrecord : ∀ e u, P u → P (u.record e))
include hrecord

/-- What every latched event keeps, a firing keeps. -/
theorem fire_status {r : CueRecord} {s : State} (h : P s.status) : P (fire r s).status := by
  change P (fireMoves r s).status
  unfold fireMoves
  generalize r.moves = moves
  induction moves generalizing s with
  | nil => exact h
  | cons m rest ih =>
    refine ih ?_
    change P (fireMove r.number s (r.fill m)).status
    unfold fireMove
    split
    · exact hrecord _ _ h
    · exact h

theorem lossAction_status {s : State} (h : P s.status) : P (lossAction s).status := by
  unfold lossAction
  split
  · exact h
  · exact h
  · split
    · exact h
    · exact hrecord _ _ h

theorem relink_status {s : State} (h : P s.status) : P (relink s).status := by
  rcases relink_cases s with ⟨_, he⟩ | ⟨_, he⟩ | ⟨_, he⟩ | ⟨_, he⟩ <;> rw [he]
  · exact h
  · exact h
  · exact hrecord _ _ h
  · exact lossAction_status hrecord (s := latch .linkLost (withLink .lost s)) (hrecord _ _ h)

theorem configureSupervision_status {c : SupervisionConfig} {s : State} (h : P s.status) :
    P (configureSupervision c s).status := by
  unfold configureSupervision
  split
  · exact h
  · exact relink_status hrecord (s := { s with sup := { s.sup with config := c } }) h
  · exact h
  · exact h

theorem leftByCompletion_status {owner : Nat} {u : FadeEngine} {s : State} (h : P s.status) :
    P (leftByCompletion owner u s).status := by
  unfold leftByCompletion
  dsimp only
  split
  · exact hrecord _ _ h
  · exact h

end Status

/-! ### The saturating counts (R164, R180) -/

section Counts

theorem countPulse_pulses_le {u : StatusUnit} (e : Event) (h : u.pulses ≤ Config.maxPulses) :
    (u.countPulse e).pulses ≤ Config.maxPulses := by
  unfold StatusUnit.countPulse
  split
  · exact Nat.min_le_left _ _
  · exact h

theorem record_pulses_le (e : Event) (u : StatusUnit) (h : u.pulses ≤ Config.maxPulses) :
    (u.record e).pulses ≤ Config.maxPulses := by
  unfold StatusUnit.record
  split
  · exact h
  · exact countPulse_pulses_le e h

theorem showReset_pulses_le {u : StatusUnit} (changed : Bool) (h : u.pulses ≤ Config.maxPulses) :
    (u.showReset changed).pulses ≤ Config.maxPulses := by
  unfold StatusUnit.showReset
  split
  · dsimp only
    split
    · exact h
    · exact countPulse_pulses_le _ h
  · exact h

theorem setMode_pulses_le {u : StatusUnit} (mode : AttentionMode) (h : u.pulses ≤ Config.maxPulses) :
    (u.setMode mode).pulses ≤ Config.maxPulses := by
  unfold StatusUnit.setMode
  dsimp only
  split
  · exact h
  · exact Nat.zero_le _

theorem pulses_change {s t : State} (hc : Change s t) (h : s.status.pulses ≤ Config.maxPulses) :
    t.status.pulses ≤ Config.maxPulses := by
  cases hc with
  | order hc =>
    cases hc with
    | go => exact fire_status record_pulses_le h
    | showReset => exact showReset_pulses_le _ h
    | heartbeat _ hu =>
      subst hu
      exact relink_status record_pulses_le (s := { s with sup := _ }) h
    | supervisionConfig => exact configureSupervision_status record_pulses_le h
    | attentionConfig => exact setMode_pulses_le _ h
    | _ => exact h
  | latched => exact record_pulses_le _ _ h
  | fired => exact fire_status record_pulses_le h
  | snapped => exact leftByCompletion_status record_pulses_le h
  | faded => exact leftByCompletion_status record_pulses_le h
  | resolved => exact record_pulses_le _ _ h
  | windowEnded _ hu =>
    subst hu
    exact relink_status record_pulses_le (s := { s with sup := _ }) h
  | pulseEnded => exact Nat.le_trans (Nat.sub_le _ _) h
  | _ => exact h

theorem collisions_change {s t : State} (hc : Change s t) (h : s.link.collisions ≤ Config.maxCollisions) :
    t.link.collisions ≤ Config.maxCollisions := by
  cases hc with
  | order hc => cases hc <;> exact h
  | collided => exact Nat.min_le_left _ _
  | _ => exact h

end Counts

/-! ### The full reset (R2) -/

/-- While a full reset lasts no command but its end or another reset has an effect. -/
theorem exec_inReset {i : Instr} {s : State} (h : s.inReset = true) (h1 : i ≠ .fullReset)
    (h2 : ∀ p g l, i ≠ .fullResetEnd p g l) : exec i s = .next s := by
  have hreceived : ∀ act, received act s = .next s := fun act => by
    unfold received
    rw [h]
    rfl
  cases i with
  | fullReset => exact absurd rfl h1
  | fullResetEnd p g l => exact absurd rfl (h2 p g l)
  | frameAbandon received last framingFault =>
    exact hreceived (fun s => linkByte framingFault (linkBytes received s) last)
  | frameGapExpiry received => exact hreceived (fun s => linkGap (linkBytes received s))
  | _ => exact event_inReset h _

theorem change_inReset {s t : State} (hc : Change s t) : t.inReset = s.inReset := by
  cases hc with
  | order hc => cases hc <;> rfl
  | _ => rfl

theorem fullResetEnd_inReset {pins : Address} {goLine stopLine : Level} {s t : State}
    (he : exec (.fullResetEnd pins goLine stopLine) s = .next t) : t.inReset = false := by
  cases he
  unfold actFullResetEnd
  cases h : s.inReset
  · exact h
  · have hstop : (setStopLine stopLine (releasedFromReset pins goLine s)).inReset = false := by
      unfold setStopLine
      rw [changeStop_frame]
      rfl
    rw [if_pos rfl]
    rcases noteChanges_cases (releasedFromReset pins goLine s) (setStopLine stopLine (releasedFromReset pins goLine s))
      with e | e <;> rw [e]
    · exact hstop
    · exact hstop

theorem exec_heldInReset {i : Instr} {s t : State} (h : HeldWhileInReset s) (he : exec i s = .next t) :
    HeldWhileInReset t := by
  by_cases h1 : i = .fullReset
  · subst h1
    cases he
    exact fun _ => rfl
  · by_cases h2 : ∃ p g l, i = .fullResetEnd p g l
    · obtain ⟨p, g, l, rfl⟩ := h2
      intro hr
      rw [fullResetEnd_inReset he] at hr
      cases hr
    · have h2 : ∀ p g l, i ≠ .fullResetEnd p g l := fun p g l e => h2 ⟨p, g, l, e⟩
      cases hr : s.inReset
      · have hkept : t.inReset = false :=
          (keeps_of_change (Inv := fun u => u.inReset = false) fun hc h => (change_inReset hc).trans h).exec h1 h2 hr he
        intro hr'
        rw [hkept] at hr'
        cases hr'
      · rw [exec_inReset hr h1 h2] at he
        cases he
        exact h

theorem idle_heldInReset {s : State} (h : HeldWhileInReset s) : HeldWhileInReset (idle s) := by
  cases hr : s.inReset
  · have hkept : (idle s).inReset = false := by
      by_cases hdue : forcedEvents s ++ freeEvents s = []
      · rw [idle_passes hr hdue]
        exact hr
      · obtain ⟨e, -, hidle⟩ := idle_due hr hdue
        rw [hidle]
        exact hr
    intro hr'
    rw [hkept] at hr'
    cases hr'
  · have hidle : idle s = s := by
      unfold idle
      rw [hr]
      rfl
    rw [hidle]
    exact h

theorem heldInReset_queue {s : State} (q : List Instr) (h : HeldWhileInReset s) :
    HeldWhileInReset { s with pending := q } := by
  intro hr
  exact congrArg (fun u : State => { u with pending := q }) (h hr)

theorem heldInReset_step {s t : State} (h : HeldWhileInReset s) (hs : step s = .next t) : HeldWhileInReset t := by
  cases hp : s.pending with
  | nil =>
    rw [step_nil hp] at hs
    cases hs
    exact idle_heldInReset h
  | cons c rest =>
    rw [step_cons hp] at hs
    exact exec_heldInReset (heldInReset_queue rest h) hs

/-- Settles O59: each unit's property is kept by every change, by the passing of time and by the resets; the full reset's
by the commands' having no effect while it lasts. -/
theorem unitsKept : Obligations.UnitsKept := by
  refine ⟨fun s t hs => ⟨fun h => ?ramps, fun h => ?memberships⟩, fun s t h hs => ?windows,
    fun s t hs => ⟨fun h => ?link, fun h => ⟨?collisions, ?pulses⟩⟩, fun s t h hs => heldInReset_step h hs⟩
  case ramps =>
    exact (step_keeps (Inv := fun s => RampsAgree s.mute) ramps_change (fun _ _ h => h) (fun _ _ h => h)
      (fun _ _ h => muteTick_agrees h) (fun _ => reset_ramps) (fun _ _ _ => reset_ramps) ⟨h⟩ hs).ramp
  case memberships =>
    exact step_keeps (Inv := fun s => ∀ c : Channel, MembersLegal s.mute.groups[c]) memberships_change
      (fun _ _ h => h) (fun _ _ h => h) (fun s _ h => by rw [advance_groups]; exact h) (fun _ => reset_memberships)
      (fun _ _ _ => reset_memberships) h hs
  case windows =>
    exact step_keeps (Inv := fun s => WindowsLegal s.out.windows) windows_change (fun _ _ h => h) (fun _ _ h => h)
      (fun _ _ h => h) (fun _ => reset_windows) (fun _ _ _ => reset_windows) h hs
  case link =>
    exact step_keeps (Inv := fun s => LinkLegal s.sup) linkLegal_change (fun _ _ h => h) (fun _ _ h => h)
      (fun _ _ h => linkLegal_advance h) (fun _ => reset_linkLegal) (fun _ _ _ => reset_linkLegal) h hs
  case collisions =>
    exact step_keeps (Inv := fun s => s.link.collisions ≤ Config.maxCollisions) collisions_change (fun _ _ h => h)
      (fun _ _ h => h) (fun _ _ h => h) (fun _ => Nat.zero_le _) (fun _ _ _ => Nat.zero_le _) h.1 hs
  case pulses =>
    exact step_keeps (Inv := fun s => s.status.pulses ≤ Config.maxPulses) pulses_change (fun _ _ h => h)
      (fun _ _ h => h) (fun _ _ h => h) (fun _ => Nat.zero_le _) (fun _ _ _ => Nat.zero_le _) h.2 hs

end Sys2Proof.Machine

/-! Every position the part holds stays within 0–1023 under every change (R3). -/

namespace Sys2Proof.Machine

open Sys2Proof.Safety

/-! ### The sources of positions -/

theorem blend_inScale {a b n : Nat} (ha : InScale a) (hb : InScale b) (hn : n ≤ 4096) : InScale (blend a b n) :=
  Nat.le_trans (blend_bounds a b hn).2 (Nat.max_le.mpr ⟨ha, hb⟩)

theorem clampPosition_inScale (n : Nat) : InScale (clampPosition n) :=
  Nat.min_le_right _ _

theorem wordPosition_inScale (w : Word16) : InScale (wordPosition w) :=
  clampPosition_inScale _

/-- An elapsed time within its duration, 0 included, makes a fraction of at most 4096ths. -/
theorem fraction_le_full {e d : Nat} (h : e ≤ d) : fraction e d ≤ 4096 := by
  rcases Nat.eq_zero_or_pos d with rfl | hd
  · simp [fraction]
  · exact fraction_le hd h

theorem rampValue_inScale {position start duration elapsed : Nat} (hposition : InScale position)
    (hstart : InScale start) (h : elapsed ≤ duration) : InScale (rampValue position start duration elapsed) := by
  unfold rampValue
  split
  · exact blend_inScale hstart hposition (fraction_le_full h)
  · exact hposition

/-! ### The Fade Engine -/

/-- Every position of a vector in scale. -/
def RestInScale (rest : Vector Nat 80) : Prop :=
  ∀ t : Target, InScale rest[t]

theorem restInScale_set {rest : Vector Nat 80} {t : Target} {p : Nat} (h : RestInScale rest) (hp : InScale p) :
    RestInScale (rest.set t p) := by
  intro x
  by_cases hx : x = t
  · subst hx
    simpa using hp
  · have hne : t.val ≠ x.val := fun e => hx (Fin.ext e.symm)
    simpa [hne] using h x

/-- Every position of the Fade Engine in scale. -/
structure FadeInScale (u : FadeEngine) : Prop where
  rest : RestInScale u.rest
  base : RestInScale u.base
  entries (e : FadeEntry) : e ∈ u.entries → EntryInScale e

section Fade

variable {u : FadeEngine}

theorem value?_inScale {e : FadeEntry} {p : Nat} (h : EntryInScale e) (hp : e.value? = some p) : InScale p := by
  obtain ⟨hgoal, hphase⟩ := h
  unfold FadeEntry.value? at hp
  split at hp
  next start elapsed hrunning =>
    cases hp
    rw [hrunning] at hphase
    exact blend_inScale hphase.1 hgoal (shape_le _ (fraction_le_full hphase.2))
  next => cases hp

theorem automation_inScale (h : FadeInScale u) (t : Target) : InScale (u.automation t) := by
  unfold FadeEngine.automation
  cases hfound : u.entries.findSome? (fun e => if e.target = t then e.value? else none) with
  | none => exact h.rest t
  | some p =>
    obtain ⟨e, he, hvalue⟩ := List.exists_of_findSome?_eq_some hfound
    split at hvalue
    · exact value?_inScale (h.entries e he) hvalue
    · cases hvalue

theorem filter_inScale (p : FadeEntry → Bool) (h : FadeInScale u) :
    FadeInScale { u with entries := u.entries.filter p } :=
  ⟨h.rest, h.base, fun e he => h.entries e (List.mem_filter.mp he).1⟩

theorem append_inScale {e : FadeEntry} (h : FadeInScale u) (he : EntryInScale e) : FadeInScale (u.append e) := by
  refine ⟨h.rest, h.base, fun x hx => ?_⟩
  rcases List.mem_append.mp hx with hx | hx
  · exact h.entries x hx
  · rw [List.mem_singleton.mp hx]
    exact he

theorem setRest_inScale {t : Target} {p : Nat} (h : FadeInScale u) (hp : InScale p) : FadeInScale (u.setRest t p) :=
  ⟨restInScale_set h.rest hp, h.base, h.entries⟩

theorem applyMove_inScale {owner : Nat} {m : FiredMove} (h : FadeInScale u) (hm : InScale m.position) :
    FadeInScale (u.applyMove owner m) := by
  have hv : FadeInScale (u.dropWaiting m.target) := filter_inScale _ h
  have hw : FadeInScale ((u.dropWaiting m.target).dropRunning m.target) := filter_inScale _ hv
  unfold FadeEngine.applyMove
  dsimp only
  split
  · exact append_inScale hv ⟨hm, trivial⟩
  · split
    · exact append_inScale hw ⟨hm, automation_inScale hv _, Nat.zero_le _⟩
    · exact setRest_inScale hw hm

theorem fire_inScale {r : CueRecord} {s : State} (h : FadeInScale s.fade) (hr : MovesInScale r) :
    FadeInScale (fire r s).fade := by
  rw [fire_fade]
  unfold fireMoves
  refine List.foldlRecOn (motive := fun v : State => FadeInScale v.fade) r.moves _ h fun v hv m hm => ?_
  unfold fireMove
  split
  · exact hv
  · exact applyMove_inScale hv (hr m hm)

theorem startWaiting_inScale (t : Target) (h : FadeInScale u) : FadeInScale (u.startWaiting t) := by
  refine ⟨h.rest, h.base, fun e he => ?_⟩
  obtain ⟨x, hx, rfl⟩ := List.mem_map.mp he
  have hx := h.entries x (List.mem_filter.mp hx).1
  split
  · exact ⟨hx.1, automation_inScale h t, Nat.zero_le _⟩
  · exact hx

theorem leftByCompletion_inScale {owner : Nat} {s : State} (h : FadeInScale u) :
    FadeInScale (leftByCompletion owner u s).fade := by
  unfold leftByCompletion
  dsimp only
  split
  · exact ⟨h.rest, h.base, h.entries⟩
  · exact h

theorem resolvedPosition_inScale {t : Target} {base : Nat} {walk : List CueRecord} (hbase : InScale base)
    (h : ∀ r ∈ walk, MovesInScale r) : InScale (resolvedPosition t base walk) := by
  induction walk with
  | nil => exact hbase
  | cons r rest ih =>
    obtain ⟨hr, hrest⟩ := List.forall_mem_cons.mp h
    unfold resolvedPosition
    split
    next m hm => exact hr m (List.mem_of_find?_eq_some hm)
    next =>
      split
      · exact hbase
      · exact ih hrest

theorem install_inScale {t : Target} {p time : Nat} (h : FadeInScale u) (hp : InScale p) :
    FadeInScale (u.install t p time) := by
  have hv : FadeInScale (u.dropAll t) := filter_inScale _ h
  unfold FadeEngine.install
  dsimp only
  split
  · exact append_inScale hv ⟨hp, automation_inScale h t, Nat.zero_le _⟩
  · exact setRest_inScale hv hp

theorem resolveAll_inScale {ws : Vector (Option Window) 8} {walk : List CueRecord} {time : Nat} (h : FadeInScale u)
    (hwalk : ∀ r ∈ walk, MovesInScale r) : FadeInScale (u.resolveAll ws walk time) := by
  unfold FadeEngine.resolveAll
  refine List.foldlRecOn (motive := FadeInScale) _ _ h fun v hv t _ => ?_
  unfold FadeEngine.resolveTarget
  split
  · exact hv
  · dsimp only
    split
    · exact install_inScale hv (resolvedPosition_inScale (hv.base t) hwalk)
    · exact hv

theorem entryTick_inScale {e : FadeEntry} (h : EntryInScale e) : EntryInScale e.tick := by
  obtain ⟨hgoal, hphase⟩ := h
  unfold FadeEntry.tick
  split
  next => exact ⟨hgoal, trivial⟩
  next start elapsed hrunning =>
    rw [hrunning] at hphase
    exact ⟨hgoal, hphase.1, Nat.min_le_left _ _⟩

theorem fadeTick_inScale (freeze : Bool) (h : FadeInScale u) : FadeInScale (u.tick freeze) := by
  cases freeze
  · rw [FadeEngine.tick_free]
    refine ⟨h.rest, h.base, fun e he => ?_⟩
    obtain ⟨x, hx, rfl⟩ := List.mem_map.mp he
    exact entryTick_inScale (h.entries x hx)
  · rw [FadeEngine.tick_frozen]
    exact h

theorem resetPosition_inScale (t : Target) : InScale (resetPosition t) := by
  unfold resetPosition
  split <;> decide

theorem reset_fadeInScale : FadeInScale FadeEngine.reset := by
  have hrest : RestInScale (Vector.ofFn resetPosition) := fun t => by
    simpa using resetPosition_inScale t
  exact ⟨hrest, hrest, nofun⟩

end Fade

/-! ### The Ownership Unit -/

/-- Every position of the Ownership Unit in scale. -/
structure OwnInScale (u : Ownership) : Prop where
  owner (t : Target) : OwnerInScale u.owners[t]
  last (i : Strip) : InScale u.strips[i].lastPosition

section Own

variable {u : Ownership}

theorem setOwner_inScale {t : Target} {o : Owner} (h : OwnInScale u) (ho : OwnerInScale o) :
    OwnInScale (u.setOwner t o) := by
  refine ⟨fun x => ?_, h.last⟩
  rw [setOwner_get]
  split
  · exact ho
  · exact h.owner x

theorem setStrip_inScale {i : Strip} {r : StripRecord} (h : OwnInScale u) (hr : InScale r.lastPosition) :
    OwnInScale (u.setStrip i r) := by
  refine ⟨h.owner, fun j => ?_⟩
  rw [setStrip_get]
  split
  · exact hr
  · exact h.last j

theorem released_inScale {p : Nat} (u : Ownership) (hp : InScale p) : OwnerInScale (u.released p) := by
  unfold Ownership.released
  split
  · trivial
  · exact ⟨hp, Nat.zero_le _⟩

theorem letGo_inScale {t : Target} {p : Nat} (h : OwnInScale u) (hp : InScale p) : OwnInScale (u.letGo t p) :=
  setOwner_inScale h (released_inScale u hp)

theorem touchFall_inScale (h : OwnInScale u) (i : Strip) : OwnInScale (u.touchFall i) := by
  unfold Ownership.touchFall
  split
  · exact setStrip_inScale (letGo_inScale h (h.last i)) (h.last i)
  · exact setStrip_inScale h (h.last i)
  · exact h

theorem touchHold_inScale {p : Nat} (h : OwnInScale u) (i : Strip) (hp : InScale p) : OwnInScale (u.touchHold i p) := by
  unfold Ownership.touchHold
  split
  · exact setStrip_inScale h hp
  · exact setStrip_inScale h hp
  · exact h

theorem touchRise_inScale {p : Nat} (h : OwnInScale u) (i : Strip) (hp : InScale p) : OwnInScale (u.touchRise i p) := by
  unfold Ownership.touchRise
  split
  · exact setOwner_inScale (setStrip_inScale h hp) trivial
  · exact setStrip_inScale h hp

theorem passes_inScale {pass : Ownership → Strip → Ownership} (hpass : ∀ u i, OwnInScale u → OwnInScale (pass u i))
    (L : List Strip) (h : OwnInScale u) : OwnInScale (L.foldl pass u) :=
  List.foldlRecOn (motive := OwnInScale) L pass h fun u hu i _ => hpass u i hu

theorem takeReport_inScale (words : Vector Word16 16) (h : OwnInScale u) : OwnInScale (u.takeReport words) := by
  have hfall : ∀ v i, OwnInScale v → OwnInScale (fallPass words v i) := fun v i hv => by
    unfold fallPass
    split
    · exact hv
    · exact touchFall_inScale hv i
  have hhold : ∀ v i, OwnInScale v → OwnInScale (holdPass words v i) := fun v i hv => by
    unfold holdPass
    split
    · exact touchHold_inScale hv i (wordPosition_inScale _)
    · exact hv
  have hrise : ∀ v i, OwnInScale v → OwnInScale (risePass u words v i) := fun v i hv => by
    unfold risePass
    split
    · exact touchRise_inScale hv i (wordPosition_inScale _)
    · exact hv
  exact passes_inScale hrise _ (passes_inScale hhold _ (passes_inScale hfall _ h))

theorem takeFirstReport_inScale (words : Vector Word16 16) (h : OwnInScale u) :
    OwnInScale (u.takeFirstReport words) := by
  refine passes_inScale (fun v i hv => ?_) _ h
  unfold absentPass
  split
  · exact setStrip_inScale hv (wordPosition_inScale _)
  · exact hv

theorem loss_inScale (h : OwnInScale u) : OwnInScale (allStrips.foldl Ownership.touchFall u) :=
  passes_inScale (fun _ i hv => touchFall_inScale hv i) allStrips h

theorem report_inScale (scan : Byte) (words : Vector Word16 16) {s : State} (h : OwnInScale s.own) :
    OwnInScale (actSurfaceReport scan words s).own := by
  change OwnInScale (if s.surface.present then s.own.takeReport words else s.own.takeFirstReport words)
  split
  · exact takeReport_inScale words h
  · exact takeFirstReport_inScale words h

theorem retime_inScale {r : StripRecord} (old new : Nat) (h : InScale r.lastPosition) :
    InScale (r.retime old new).lastPosition := by
  unfold StripRecord.retime
  split
  · split
    · exact h
    · split <;> exact h
  all_goals exact h

theorem surfaceConfig_inScale (stuck glide : Nat) (h : OwnInScale u) : OwnInScale { u with
    stuckTime := stuck, glideTime := glide
    strips := Vector.ofFn fun i : Strip => u.strips[i].retime u.stuckTime stuck } := by
  refine ⟨h.owner, fun i => ?_⟩
  simp only [Fin.getElem_fin, Vector.getElem_ofFn]
  exact retime_inScale _ _ (h.last i)

theorem ownerTick_inScale {o : Owner} (h : OwnerInScale o) : OwnerInScale o.tick := by
  cases o with
  | glide => exact ⟨h.1, Nat.min_le_left _ _⟩
  | parked => exact ⟨h.1, h.2.1, Nat.min_le_left _ _⟩
  | _ => exact h

theorem stripTick_last (r : StripRecord) : r.tick.lastPosition = r.lastPosition := by
  unfold StripRecord.tick
  split <;> rfl

theorem ownTick_inScale (h : OwnInScale u) : OwnInScale u.tick := by
  refine ⟨fun t => ?_, fun i => ?_⟩
  · simp only [Ownership.tick, Fin.getElem_fin, Vector.getElem_ofFn]
    exact ownerTick_inScale (h.owner t)
  · simp only [Ownership.tick, Fin.getElem_fin, Vector.getElem_ofFn]
    rw [stripTick_last]
    exact h.last i

theorem showReset_inScale (h : OwnInScale u) : OwnInScale u.showReset := by
  refine ⟨fun t => ?_, fun i => ?_⟩
  · rw [showReset_owners]
    have ho := h.owner t
    unfold Ownership.unparked
    split
    next hparked =>
      rw [hparked] at ho
      exact released_inScale u (rampValue_inScale ho.1 ho.2.1 ho.2.2)
    next => trivial
    next => trivial
    next hglide =>
      rw [hglide] at ho
      exact ho
  · rw [showReset_strips]
    exact h.last i

theorem reset_ownInScale : OwnInScale Ownership.reset := by
  refine ⟨fun t => ?_, fun i => ?_⟩
  · simp only [Ownership.reset, Fin.getElem_fin, Vector.getElem_replicate]
    trivial
  · simp [Ownership.reset]

end Own

/-! ### The Cue Store -/

/-- Every position of the Cue Store in scale. -/
structure CuesInScale (u : CueStore) : Prop where
  table (r : CueRecord) : r ∈ u.table → MovesInScale r
  edit (r : CueRecord) : r ∈ u.edit → MovesInScale r

section Cues

variable {u : CueStore}

theorem setEdit_inScale {edit : Option CueRecord} (h : CuesInScale u) (he : ∀ r ∈ edit, MovesInScale r) :
    CuesInScale { u with edit := edit } :=
  ⟨h.table, he⟩

theorem commit_inScale {r : CueRecord} (h : CuesInScale u) (hr : MovesInScale r) : CuesInScale (u.commit r) := by
  refine ⟨fun x hx => ?_, h.edit⟩
  rcases mem_of_mem_insertCue hx with rfl | hx
  · exact hr
  · exact h.table x hx

theorem delete_inScale (n : Nat) (h : CuesInScale u) : CuesInScale (u.delete n) :=
  ⟨fun r hr => h.table r (mem_removeCue.mp hr).1, h.edit⟩

theorem moveAt_inScale {p : List Byte} {i : Nat} {m : Move} (h : moveAt p i = some m) : InScale m.position := by
  obtain ⟨-, hposition, -⟩ := moveAt_eq_some h
  rw [hposition]
  exact Nat.min_le_right _ _

theorem movesOf_inScale {p : List Byte} {moves : List Move} (h : movesOf p = some moves) :
    ∀ m ∈ moves, InScale m.position := by
  intro m hm
  have hmem : some m ∈ (List.range (p.length / 8)).map fun k => moveAt p (8 * k) := by
    rw [allPresent_eq_some.mp h]
    exact List.mem_map_of_mem hm
  obtain ⟨k, -, hk⟩ := List.mem_map.mp hmem
  exact moveAt_inScale hk

theorem applyMoves_inScale {moves into : List Move} (hmoves : ∀ m ∈ moves, InScale m.position)
    (hinto : ∀ m ∈ into, InScale m.position) : ∀ m ∈ applyMoves moves into, InScale m.position := by
  intro m hm
  rw [applyMoves_eq] at hm
  rcases mem_of_mem_foldl_insertByKey hm with hm | hm
  · exact hmoves m hm
  · exact hinto m hm

theorem walk_inScale (goal : Nat) (h : CuesInScale u) : ∀ r ∈ walkFrom u.table goal, MovesInScale r :=
  fun r hr => h.table r (List.mem_filter.mp (List.mem_reverse.mp hr)).1

theorem reset_cuesInScale : CuesInScale CueStore.reset :=
  ⟨nofun, nofun⟩

end Cues

/-! ### The part -/

/-- Every position the part holds in scale, block by block. -/
structure AllInScale (s : State) : Prop where
  fade : FadeInScale s.fade
  own : OwnInScale s.own
  cues : CuesInScale s.cues

theorem positionsInScale_iff (s : State) : PositionsInScale s ↔ AllInScale s :=
  ⟨fun ⟨hrest, hbase, hentries, howners, hstrips, htable, hedit⟩ =>
      ⟨⟨hrest, hbase, hentries⟩, ⟨howners, hstrips⟩, ⟨htable, hedit⟩⟩,
    fun h => ⟨h.fade.rest, h.fade.base, h.fade.entries, h.own.owner, h.own.last, h.cues.table, h.cues.edit⟩⟩

theorem effective_inScale {s : State} (h : AllInScale s) (t : Target) : InScale (effective s t) := by
  have ho := h.own.owner t
  unfold effective
  split
  next => exact automation_inScale h.fade t
  next i _ => exact h.own.last i
  next hglide =>
    rw [hglide] at ho
    exact blend_inScale ho.1 (automation_inScale h.fade t) (fraction_le_full ho.2)
  next hparked =>
    rw [hparked] at ho
    exact rampValue_inScale ho.1 ho.2.1 ho.2.2

theorem liveRecord_inScale {s : State} (n : Nat) (kind : CueKind) (h : AllInScale s) :
    MovesInScale (liveRecord n kind s) := by
  intro m hm
  obtain ⟨t, -, rfl⟩ := List.mem_map.mp hm
  exact effective_inScale h t

theorem park_inScale {s : State} {t : Target} {position time : Nat} (h : AllInScale s) (hp : InScale position) :
    OwnInScale (parkTarget t position time s).own := by
  have hparked : OwnInScale (s.own.setOwner t (.parked position (effective s t) (time * 100) 0)) :=
    setOwner_inScale h.own ⟨hp, effective_inScale h t, Nat.zero_le _⟩
  by_cases ho : ∃ i, s.own.owners[t] = .operator i
  · obtain ⟨i, ho⟩ := ho
    rw [parkTarget_own_of_operator ho]
    exact setStrip_inScale hparked (h.own.last i)
  · rw [parkTarget_own_of_not_operator (not_exists.mp ho)]
    exact hparked

theorem standbyRecord_inScale {s : State} {r : CueRecord} (h : AllInScale s) (hr : standbyRecord s = some r) :
    MovesInScale r := by
  obtain ⟨c, -, hfound⟩ := Option.bind_eq_some_iff.mp hr
  exact h.cues.table r (List.mem_of_find?_eq_some hfound)

theorem inScale_orderChange {kind : Byte} {s t : State} (hc : OrderChange kind s t) (h : AllInScale s) :
    AllInScale t := by
  obtain ⟨hfade, hown, hcues⟩ := id h
  cases hc with
  | go hgo => exact ⟨fire_inScale hfade (standbyRecord_inScale h (checkGo_ok hgo).1), hown, hcues⟩
  | showReset => exact ⟨⟨hfade.base, hfade.base, nofun⟩, showReset_inScale hown, setEdit_inScale hcues nofun⟩
  | recordBegin _ _ hmoves =>
    refine ⟨hfade, hown, setEdit_inScale hcues fun r hr m hm => ?_⟩
    cases hr
    rw [hmoves] at hm
    cases hm
  | moveAdd hd hmoves =>
    refine ⟨hfade, hown, setEdit_inScale hcues fun r hr => ?_⟩
    cases hr
    exact applyMoves_inScale (movesOf_inScale hmoves) (hcues.edit _ hd)
  | muteActionAdd hd =>
    refine ⟨hfade, hown, setEdit_inScale hcues fun r hr => ?_⟩
    cases hr
    have hmoves : MovesInScale _ := hcues.edit _ hd
    exact hmoves
  | recordEnd hd => exact ⟨hfade, hown, setEdit_inScale (commit_inScale hcues (hcues.edit _ hd)) nofun⟩
  | recordAbandon => exact ⟨hfade, hown, setEdit_inScale hcues nofun⟩
  | recordLive => exact ⟨hfade, hown, commit_inScale hcues (liveRecord_inScale _ _ h)⟩
  | cueDelete => exact ⟨hfade, hown, delete_inScale _ hcues⟩
  | baseSet => exact ⟨⟨hfade.rest, restInScale_set hfade.base (clampPosition_inScale _), hfade.entries⟩, hown, hcues⟩
  | park => exact ⟨hfade, park_inScale h (clampPosition_inScale _), hcues⟩
  | unpark hparked =>
    rename_i x position start duration elapsed
    have ho : OwnerInScale s.own.owners[x] := hown.owner x
    rw [hparked] at ho
    exact ⟨hfade, letGo_inScale hown (rampValue_inScale ho.1 ho.2.1 ho.2.2), hcues⟩
  | bankAssign => exact ⟨hfade, ⟨hown.owner, hown.last⟩, hcues⟩
  | pageSelect => exact ⟨hfade, ⟨hown.owner, hown.last⟩, hcues⟩
  | surfaceConfig => exact ⟨hfade, surfaceConfig_inScale _ _ hown, hcues⟩
  | _ => exact ⟨hfade, hown, hcues⟩

theorem inScale_change {s t : State} (hc : Change s t) (h : AllInScale s) : AllInScale t := by
  obtain ⟨hfade, hown, hcues⟩ := id h
  cases hc with
  | order hc => exact inScale_orderChange hc h
  | report => exact ⟨hfade, report_inScale _ _ hown, hcues⟩
  | fired hr => exact ⟨fire_inScale hfade (standbyRecord_inScale h hr), hown, hcues⟩
  | fadeStarted => exact ⟨startWaiting_inScale _ hfade, hown, hcues⟩
  | snapped hdue =>
    rename_i x e
    have hgoal := (hfade.entries _ (delayDue_mem hdue).1).1
    have hleft : FadeInScale ((s.fade.dropAll x).setRest x e.goal) := setRest_inScale (filter_inScale _ hfade) hgoal
    exact ⟨leftByCompletion_inScale hleft, hown, hcues⟩
  | faded hdue =>
    rename_i x e
    have hgoal := (hfade.entries _ (List.mem_of_find?_eq_some hdue)).1
    have hleft : FadeInScale ((s.fade.dropRunning x).setRest x e.goal) :=
      setRest_inScale (filter_inScale _ hfade) hgoal
    exact ⟨leftByCompletion_inScale hleft, hown, hcues⟩
  | resolved => exact ⟨resolveAll_inScale hfade (walk_inScale _ hcues), hown, hcues⟩
  | surfaceLost =>
    refine ⟨hfade, ?_, hcues⟩
    dsimp only
    exact loss_inScale hown
  | stuck =>
    rename_i x _ i _
    exact ⟨hfade, setStrip_inScale (letGo_inScale hown (hown.last i)) (hown.last i), hcues⟩
  | glideEnded => exact ⟨hfade, setOwner_inScale hown trivial, hcues⟩
  | _ => exact ⟨hfade, hown, hcues⟩

/-- Settles O55: every change, the passing of time and the resets keep each block's positions in scale. -/
theorem positionsKept : Obligations.PositionsKept := by
  intro s t h hs
  rw [positionsInScale_iff] at h ⊢
  have hreset : ∀ u : State, u.fade = FadeEngine.reset → u.own = Ownership.reset → u.cues = CueStore.reset →
      AllInScale u := fun u hfade hown hcues =>
    ⟨hfade ▸ reset_fadeInScale, hown ▸ reset_ownInScale, hcues ▸ reset_cuesInScale⟩
  exact step_keeps inScale_change (fun _ _ h => ⟨h.fade, h.own, h.cues⟩) (fun _ _ h => ⟨h.fade, h.own, h.cues⟩)
    (fun _ _ h => ⟨fadeTick_inScale _ h.fade, ownTick_inScale h.own, h.cues⟩) (fun _ => hreset _ rfl rfl rfl)
    (fun _ _ _ => hreset _ rfl rfl rfl) h hs

end Sys2Proof.Machine

/-! The step and the passing of time (R1), the full reset (R2), and the present-state set (R177). -/

namespace Sys2Proof.Machine

open Sys2Proof.Safety

/-! ### The step -/

/-- Settles O1, by the definition of the step. -/
theorem stepRunsFrontCommand : Obligations.StepRunsFrontCommand :=
  fun _ _ _ hp => step_cons hp

/-! ### One millisecond -/

section Millisecond

variable {s : State}

theorem ownTick_owners (u : Ownership) (x : Target) : u.tick.owners[x] = u.owners[x].tick := by
  simp only [Ownership.tick, Fin.getElem_fin, Vector.getElem_ofFn]

theorem ownTick_strips (u : Ownership) (i : Strip) : u.tick.strips[i] = u.strips[i].tick := by
  simp only [Ownership.tick, Fin.getElem_fin, Vector.getElem_ofFn]

theorem muteTick_ramps (u : MuteUnit) (c : Channel) : u.tick.ramps[c] = u.ramps[c].tick := by
  simp only [MuteUnit.tick, Fin.getElem_fin, Vector.getElem_ofFn]

/-- Settles O2, from the ticks of the blocks' timers. -/
theorem timePasses : Obligations.TimePasses := by
  intro s hp hr hdue
  refine ⟨{ advance s with choices := s.choices + 1 }, ?step, hp, hr, rfl,
    fun hfreeze => ⟨advance_fade_of_frozen hfreeze, advance_follow_of_frozen hfreeze⟩,
    fun hfreeze => ⟨?fades, advance_follow_of_free hfreeze⟩, rfl, fun x => ?owners, fun i => ?strips, rfl,
    fun c => ?ramps, rfl, rfl, rfl, rfl, rfl, rfl, rfl⟩
  case step => rw [step_nil hp, idle_passes hr hdue]
  case fades => exact advance_fade_of_free hfreeze
  case owners =>
    change s.own.tick.owners[x] = _
    rw [ownTick_owners]
    cases s.own.owners[x] <;> rfl
  case strips =>
    change s.own.tick.strips[i] = _
    rw [ownTick_strips]
    unfold StripRecord.tick
    split <;> simp_all
  case ramps =>
    change s.mute.tick.ramps[c] = _
    rw [muteTick_ramps]
    cases s.mute.ramps[c] <;> rfl

end Millisecond

/-! ### The present-state set (R177) -/

section Present

theorem bit_latched (d e : Event) : e.bit.getLsbD d.index = decide (d = e) := by
  cases e <;> cases d <;> rfl

/-- A latched event is latched, and no other event's bit changes (R178). -/
theorem record_latched (u : StatusUnit) (e d : Event) : (u.record e).latched d = (u.latched d || decide (d = e)) := by
  unfold StatusUnit.record
  split
  next h =>
    by_cases hd : d = e
    · rw [hd, h, decide_eq_true rfl, Bool.or_true]
    · rw [decide_eq_false hd, Bool.or_false]
  next =>
    unfold StatusUnit.latched
    rw [BitVec.getLsbD_or, bit_latched]

theorem noteChanges_of_ne {before after : State} (h : present before ≠ present after) :
    noteChanges before after = latch .stateChanged after :=
  if_neg h

/-- The commands whose bytes may hold whole frames, and the resets; every other command is one event. -/
def IsEvent (i : Instr) : Prop :=
  i ≠ .fullReset ∧ (∀ p g l, i ≠ .fullResetEnd p g l) ∧ (∀ r b k, i ≠ .frameAbandon r b k)
    ∧ ∀ r, i ≠ .frameGapExpiry r

theorem exec_event {i : Instr} (h : IsEvent i) (s : State) : ∃ act, exec i s = event act s := by
  obtain ⟨hreset, hend, habandon, hgap⟩ := h
  cases i with
  | fullReset => exact absurd rfl hreset
  | fullResetEnd p g l => exact absurd rfl (hend p g l)
  | frameAbandon r b k => exact absurd rfl (habandon r b k)
  | frameGapExpiry r => exact absurd rfl (hgap r)
  | _ => exact ⟨_, rfl⟩

theorem event_notes {act : State → State} {s t : State} (h : event act s = .next t) (hne : present s ≠ present t) :
    t.status.latched .stateChanged = true := by
  cases hr : s.inReset
  · rw [event_run hr] at h
    cases h
    by_cases hsame : present s = present (act s)
    · rw [noteChanges_same hsame] at hne
      exact absurd hsame hne
    · rw [noteChanges_of_ne hsame]
      exact (record_latched _ _ _).trans (Bool.or_true _)
  · rw [event_inReset hr] at h
    cases h
    exact absurd rfl hne

theorem present_ne_of_held {s t : State} (hs : s.play.state ≠ .held) (ht : t.play.state = .held) :
    present s ≠ present t := by
  intro h
  have hheld : decide (s.play.state = .held) = decide (t.play.state = .held) := congrArg Present.held h
  rw [decide_eq_false hs, decide_eq_true ht] at hheld
  cases hheld

theorem stopActive_iff (u : MuteUnit) : u.stopActive = true ↔ u.stopFlag = true ∨ u.stopLine = .low := by
  unfold MuteUnit.stopActive
  cases u.stopLine <;> simp [lineLow]

/-- Settles O53: the conditions by their definition, and the notice by the shape every event has. -/
theorem presentStatesNoted : Obligations.PresentStatesNoted := by
  refine ⟨fun s => ⟨?surface, ?held, ?resolving, stopActive_iff s.mute, rfl, ?editOpen, rfl⟩,
    fun before after => ⟨noteChanges_same, noteChanges_of_ne⟩, fun i s t h1 h2 h3 h4 he hne => ?noted⟩
  case surface => exact Option.isSome_iff_ne_none
  case held => exact decide_eq_true_iff
  case resolving =>
    change s.play.state.isResolving = true ↔ _
    cases s.play.state <;> simp [PlayState.isResolving]
  case editOpen => exact Option.isSome_iff_ne_none
  case noted =>
    obtain ⟨act, hact⟩ := exec_event ⟨h1, h2, h3, h4⟩ s
    exact event_notes (hact.symm.trans he) hne

end Present

/-! ### The full reset (R2) -/

section Reset

theorem resetPosition_eq (t : Target) : FadeEngine.reset.base[t] = if t.val < 64 then 0 else 768 := by
  simp [FadeEngine.reset, resetPosition]

/-- Settles O12, block by block. -/
theorem resetValues : Obligations.ResetValues := by
  refine ⟨rfl, rfl, rfl, rfl, rfl, rfl, rfl, rfl, rfl, rfl, rfl, rfl, fun t => ⟨rfl, resetPosition_eq t⟩, rfl, rfl,
    fun t => ?owners, fun i => ?strips, fun p i => ?bank, rfl, rfl, rfl, rfl, rfl, rfl, fun c => ?mutes,
    fun m => ?groups, rfl, rfl, rfl, fun n => ?windows, rfl, rfl, rfl, rfl, rfl, rfl, rfl, rfl, rfl, rfl, rfl, ?line⟩
  case owners => simp [State.reset, Ownership.reset]
  case strips => simp [State.reset, Ownership.reset]
  case bank => simp [State.reset, Ownership.reset]
  case mutes => simp [State.reset, MuteUnit.reset]
  case groups => simp [State.reset, MuteUnit.reset]
  case windows => simp [State.reset, OutputUnit.reset]
  case line => decide

theorem reset_request_line (level : Level) (c : Channel) :
    ({ MuteUnit.reset with stopLine := level }).request c = lineLow level := by
  simp [MuteUnit.request, MuteUnit.reset, MuteUnit.groupMuted, MuteUnit.stopCounts, MuteUnit.stopActive]

theorem reset_stopCounts_line (level : Level) (c : Channel) :
    ({ MuteUnit.reset with stopLine := level }).stopCounts c = lineLow level := by
  simp [MuteUnit.reset, MuteUnit.stopCounts, MuteUnit.stopActive]

/-- A ramp after a full reset, evaluated again with the STOP line at a level (R132). -/
theorem reset_rampAfter (level : Level) (c : Channel) :
    rampAfter MuteUnit.reset { MuteUnit.reset with stopLine := level } c =
      if level = .low then .muting 0 10 true 0 else .opened := by
  have hramp : ({ MuteUnit.reset with stopLine := level }).ramps[c] = .opened := by simp [MuteUnit.reset]
  unfold rampAfter
  rw [reset_request, reset_request_line, reset_stopCounts_line level, hramp]
  cases level <;> rfl

theorem reset_reevaluate_high :
    reevaluate MuteUnit.reset { MuteUnit.reset with stopLine := .high } = MuteUnit.reset := by
  have hramps : Vector.ofFn (rampAfter MuteUnit.reset { MuteUnit.reset with stopLine := .high }) =
      Vector.replicate 64 .opened := by
    ext i hi
    rw [Vector.getElem_ofFn, reset_rampAfter, Vector.getElem_replicate]
    rfl
  unfold reevaluate
  rw [hramps]
  rfl

section End

variable {pins : Address} {goLine : Level} {s : State}

theorem released_stopHigh : setStopLine .high (releasedFromReset pins goLine s) = releasedFromReset pins goLine s := by
  unfold setStopLine
  rw [changeStop_eq, if_neg fun h => absurd (show false = true from h.2) (by decide)]
  exact congrArg (fun u => { releasedFromReset pins goLine s with mute := u }) reset_reevaluate_high

theorem released_stopLow : setStopLine .low (releasedFromReset pins goLine s) =
    { releasedFromReset pins goLine s with
      mute := reevaluate MuteUnit.reset { MuteUnit.reset with stopLine := .low }
      play := { Playback.reset with goLine := goLine, state := .held, freeze := true } } := by
  unfold setStopLine
  rw [changeStop_eq, if_pos ⟨rfl, rfl⟩, actHold_of_unheld (.inl rfl)]
  rfl

theorem fullResetEnd_eq (hr : s.inReset = true) (stopLine : Level) :
    exec (.fullResetEnd pins goLine stopLine) s =
      .next (noteChanges (releasedFromReset pins goLine s)
        (setStopLine stopLine (releasedFromReset pins goLine s))) := by
  change Host.Outcome.next (actFullResetEnd pins goLine stopLine s) = _
  unfold actFullResetEnd
  rw [if_pos hr]

end End

theorem slde_inReset {s : State} (hr : s.inReset = true) : slde s = .low := by
  unfold slde
  split
  · exact if_pos hr
  all_goals rfl

/-- Settles O11, from the commands' having no effect in a full reset, and the two STOP levels at its end. -/
theorem fullResetTaken : Obligations.FullResetTaken := by
  refine ⟨⟨fun s => rfl, fun s hr => ⟨slde_inReset hr, if_pos hr⟩, fun i s hr h1 h2 => exec_inReset hr h1 h2⟩,
    fun pins goLine s hr => ⟨?high, ?low⟩⟩
  case high =>
    rw [fullResetEnd_eq hr, released_stopHigh, noteChanges_same rfl]
    rfl
  case low =>
    refine ⟨_, fullResetEnd_eq hr _, ?_⟩
    have hstandby : (releasedFromReset pins goLine s).play.state ≠ .held := show PlayState.standby ≠ .held by decide
    have hlatched : (StatusUnit.reset.record .stateChanged).latch = Event.stateChanged.bit := by decide
    rw [released_stopLow, noteChanges_of_ne (present_ne_of_held hstandby rfl)]
    refine ⟨rfl, rfl, rfl, rfl, rfl, fun c => ?_, rfl, rfl, rfl, rfl, rfl, hlatched⟩
    exact (reevaluate_ramps_get _ _ c).trans (reset_rampAfter .low c)

/-- Settles O60, from the reset value of each block. -/
theorem invariantsHoldAtReset : Obligations.InvariantsHoldAtReset :=
  ⟨(positionsInScale_iff _).mpr ⟨reset_fadeInScale, reset_ownInScale, reset_cuesInScale⟩, cueStoreLegal_reset,
    List.Pairwise.nil, rfl, rfl, ⟨nofun, trivial⟩, nofun, reset_ownLegal _, reset_distinct, reset_ramps.ramp,
    reset_memberships, reset_windows, reset_linkLegal, ⟨Nat.zero_le _, Nat.zero_le _⟩, nofun⟩

end Reset

end Sys2Proof.Machine

/-! Which events fall due (log 1–3), and what each family of commands leaves unchanged. -/

namespace Sys2Proof.Machine

open Sys2Proof.Safety

/-! ### The events that fall due -/

section Due

variable {s : State}

theorem mem_forcedEvents {e : Instr} : e ∈ forcedEvents s ↔
    (followDue s = true ∧ e = .followExpiry) ∨ (lockoutDue s = true ∧ e = .lockoutExpiry)
      ∨ (∃ x ∈ s.fade.entries, e ∈ x.dueEvent)
      ∨ (∃ c : Channel, s.mute.ramps[c].arrived = true ∧ e = .rampArrival c)
      ∨ (∃ x : Target, s.own.glideDue x = true ∧ e = .glideExpiry x)
      ∨ (∃ i : Strip, s.own.stuckDue i = true ∧ e = .stuckTouchExpiry i)
      ∨ (surfaceLossDue s = true ∧ e = .surfaceLoss) ∨ (outputDue s = true ∧ e = .outputPeriodExpiry)
      ∨ (windowDue s = true ∧ e = .windowExpiry) ∨ (resolutionAtBound s = true ∧ e = .resolutionCompletion) := by
  simp only [forcedEvents, List.mem_append, List.mem_flatMap, mem_when, allChannels, allStrips, List.mem_finRange,
    true_and, or_assoc]

theorem delayExpiry_mem_dueEvent {x : Target} {e : FadeEntry} :
    .delayExpiry x ∈ e.dueEvent ↔ e.target = x ∧ e.phase = .waiting 0 := by
  rw [mem_dueEvent]
  simp only [Instr.delayExpiry.injEq, reduceCtorEq, and_false, exists_const, or_false]
  rw [and_comm, eq_comm]

theorem fadeCompletion_mem_dueEvent {x : Target} {e : FadeEntry} : .fadeCompletion x ∈ e.dueEvent ↔
    e.target = x ∧ ∃ start elapsed, e.phase = .running start elapsed ∧ e.duration ≤ elapsed := by
  rw [mem_dueEvent]
  simp only [Instr.fadeCompletion.injEq, reduceCtorEq, and_false, false_or, ← and_assoc, exists_and_right]
  rw [and_comm, eq_comm]

theorem followDue_iff :
    followDue s = true ↔ s.play.follow = some 0 ∧ (s.play.state = .standby ∨ s.play.state = .running) := by
  unfold followDue
  split
  next hf hs => simp [hf, hs]
  next hf hs => simp [hf, hs]
  next h1 h2 =>
    refine iff_of_false nofun ?_
    rintro ⟨hf, hs | hs⟩
    · exact h1 hf hs
    · exact h2 hf hs

theorem lockoutDue_iff : lockoutDue s = true ↔
    ∃ elapsed, s.play.lockout = some elapsed ∧ s.play.config.lockoutTime ≤ elapsed := by
  unfold lockoutDue Playback.lockoutRunning
  cases s.play.lockout <;> simp

theorem arrived_iff {r : MuteRamp} : r.arrived = true ↔
    (∃ start rate mark elapsed, r = .muting start rate mark elapsed ∧ 1000 - start ≤ 1000 * elapsed / rate)
      ∨ ∃ start rate elapsed, r = .opening start rate elapsed ∧ start ≤ 1000 * elapsed / rate := by
  cases r with
  | muting start rate mark elapsed =>
    refine decide_eq_true_iff.trans ⟨fun h => .inl ⟨start, rate, mark, elapsed, rfl, h⟩, ?_⟩
    rintro (⟨_, _, _, _, hr, h⟩ | ⟨_, _, _, hr, _⟩) <;> cases hr
    exact h
  | opening start rate elapsed =>
    refine decide_eq_true_iff.trans ⟨fun h => .inr ⟨start, rate, elapsed, rfl, h⟩, ?_⟩
    rintro (⟨_, _, _, _, hr, _⟩ | ⟨_, _, _, hr, h⟩) <;> cases hr
    exact h
  | opened => exact iff_of_false nofun (by rintro (⟨_, _, _, _, hr, _⟩ | ⟨_, _, _, hr, _⟩) <;> cases hr)
  | muted => exact iff_of_false nofun (by rintro (⟨_, _, _, _, hr, _⟩ | ⟨_, _, _, hr, _⟩) <;> cases hr)

theorem glideDue_iff {u : Ownership} {x : Target} : u.glideDue x = true ↔
    ∃ release time elapsed, u.owners[x] = .glide release time elapsed ∧ time ≤ elapsed := by
  unfold Ownership.glideDue
  cases u.owners[x] with
  | glide release time elapsed =>
    refine decide_eq_true_iff.trans ⟨fun h => ⟨release, time, elapsed, rfl, h⟩, ?_⟩
    rintro ⟨_, _, _, ho, h⟩
    cases ho
    exact h
  | _ => exact iff_of_false nofun fun ⟨_, _, _, ho, _⟩ => nomatch ho

theorem stuckDue_iff {u : Ownership} {i : Strip} : u.stuckDue i = true ↔
    ∃ x k, u.strips[i].state = .touched x (some k) ∧ u.stuckTime * 1000 ≤ k.elapsed := by
  unfold Ownership.stuckDue
  cases u.strips[i].state with
  | touched x k =>
    cases k with
    | none => exact iff_of_false nofun fun ⟨_, _, hs, _⟩ => nomatch hs
    | some k =>
      refine decide_eq_true_iff.trans ⟨fun h => ⟨x, k, rfl, h⟩, ?_⟩
      rintro ⟨_, _, hs, h⟩
      cases hs
      exact h
  | idle => exact iff_of_false nofun fun ⟨_, _, hs, _⟩ => nomatch hs
  | blocked => exact iff_of_false nofun fun ⟨_, _, hs, _⟩ => nomatch hs

theorem surfaceLossDue_iff : surfaceLossDue s = true ↔ s.surface.silence = some 0 :=
  beq_iff_eq

theorem outputDue_iff : outputDue s = true ↔ s.out.next = some s.clock :=
  beq_iff_eq

theorem windowDue_iff : windowDue s = true ↔ ∃ w, s.sup.window = some w ∧ w.length ≤ w.elapsed := by
  unfold windowDue
  cases s.sup.window <;> simp

theorem resolutionAtBound_iff :
    resolutionAtBound s = true ↔
      ∃ r, s.play.state = .resolving r ∧ Config.resolutionBound ≤ (s.clock - r.start).toNat := by
  unfold resolutionAtBound resolutionAge
  cases s.play.state <;> simp

theorem pulseDue_iff : pulseDue s = true ↔ s.status.mode = .pulse ∧ 0 < s.status.pulses := by
  simp [pulseDue]

/-- A resolution in flight that has not reached its bound. -/
theorem resolutionInside_iff : (s.play.state.isResolving && !resolutionAtBound s) = true ↔
    ∃ r, s.play.state = .resolving r ∧ (s.clock - r.start).toNat < Config.resolutionBound := by
  unfold resolutionAtBound resolutionAge
  cases s.play.state <;> simp [PlayState.isResolving]

theorem pendingAnswer_iff {p : PortState} : p.pendingAnswer = true ↔ ∃ a, p = .answerPending a := by
  cases p <;> simp [PortState.pendingAnswer]

theorem isSending_iff {p : PortState} : p.isSending = true ↔ ∃ a, p = .sending a := by
  cases p <;> simp [PortState.isSending]

theorem receiving_iff {p : PortState} : p.receiving = true ↔ ∃ g, p = .receive g := by
  cases p <;> simp [PortState.receiving]

theorem surfaceReceiving_iff {r : SurfaceRx} : r.receiving = true ↔ ∃ g, r = .receive g := by
  cases r <;> simp [SurfaceRx.receiving]

theorem motorWaiting_iff : (!s.surface.motorQueue.isEmpty) = true ↔ s.surface.motorQueue ≠ [] := by
  simp

/-- An event that may fall is listed where its condition holds and the free value at its number says so. -/
theorem mem_when_now {due now : Bool} {P : Prop} {i j : Instr} (h : due = true ↔ P) :
    j ∈ when (due && now) i ↔ j = i ∧ now = true ∧ P := by
  rw [mem_when, Bool.and_eq_true, h, and_comm, and_comm (a := P)]

theorem mem_freeEvents {e : Instr} : e ∈ freeEvents s ↔
    (e = .resolutionCompletion ∧ Config.occursNow s.choices 0 = true
        ∧ ∃ r, s.play.state = .resolving r ∧ (s.clock - r.start).toNat < Config.resolutionBound)
      ∨ (e = .answerSend ∧ Config.occursNow s.choices 1 = true ∧ ∃ a, s.link.port = .answerPending a)
      ∨ (e = .answerSent ∧ Config.occursNow s.choices 2 = true ∧ ∃ a, s.link.port = .sending a)
      ∨ (e = .frameGapExpiry [] ∧ Config.occursNow s.choices 3 = true ∧ ∃ g, s.link.port = .receive g)
      ∨ (e = .surfaceGapExpiry [] ∧ Config.occursNow s.choices 4 = true ∧ ∃ g, s.surface.rx = .receive g)
      ∨ (e = .motorFrameSend ∧ Config.occursNow s.choices 5 = true ∧ s.surface.motorQueue ≠ [])
      ∨ (e = .attnPulse ∧ Config.occursNow s.choices 6 = true ∧ s.status.mode = .pulse ∧ 0 < s.status.pulses) := by
  unfold freeEvents
  simp only [List.mem_append, or_assoc, mem_when_now resolutionInside_iff, mem_when_now pendingAnswer_iff,
    mem_when_now isSending_iff, mem_when_now receiving_iff, mem_when_now surfaceReceiving_iff,
    mem_when_now motorWaiting_iff, mem_when_now pulseDue_iff]

/-- Settles O3, from the condition of each event. -/
theorem dueEventsQueued : Obligations.DueEventsQueued := by
  refine ⟨fun s hp hr hdue => ?queued, fun s hp hr => ?held, fun s => ?forced, fun s e => mem_freeEvents⟩
  case queued =>
    obtain ⟨e, he, hidle⟩ := idle_due hr hdue
    exact ⟨e, he, by rw [step_nil hp, hidle]⟩
  case held =>
    rw [step_nil hp]
    unfold idle
    rw [if_pos hr]
  case forced =>
    refine ⟨?follow, ?lockout, fun x => ?delay, fun x => ?completion, fun c => ?ramp, fun x => ?glide, fun i => ?stuck,
      ?loss, ?output, ?window, ?resolution, fun e he => ?only⟩
    case follow => rw [← followDue_iff]; simp [mem_forcedEvents, mem_dueEvent]
    case lockout => rw [← lockoutDue_iff]; simp [mem_forcedEvents, mem_dueEvent]
    case delay => simp [mem_forcedEvents, delayExpiry_mem_dueEvent]
    case completion => simp [mem_forcedEvents, fadeCompletion_mem_dueEvent]
    case ramp => rw [← arrived_iff]; simp [mem_forcedEvents, mem_dueEvent]
    case glide => rw [← glideDue_iff]; simp [mem_forcedEvents, mem_dueEvent]
    case stuck => rw [← stuckDue_iff]; simp [mem_forcedEvents, mem_dueEvent]
    case loss => rw [← surfaceLossDue_iff]; simp [mem_forcedEvents, mem_dueEvent]
    case output => rw [← outputDue_iff]; simp [mem_forcedEvents, mem_dueEvent]
    case window => rw [← windowDue_iff]; simp [mem_forcedEvents, mem_dueEvent]
    case resolution => refine Iff.trans ?_ resolutionAtBound_iff; simp [mem_forcedEvents, mem_dueEvent]
    case only =>
      rcases mem_forcedEvents.mp he with ⟨-, rfl⟩ | ⟨-, rfl⟩ | ⟨x, -, hx⟩ | ⟨c, -, rfl⟩ | ⟨x, -, rfl⟩ | ⟨i, -, rfl⟩
        | ⟨-, rfl⟩ | ⟨-, rfl⟩ | ⟨-, rfl⟩ | ⟨-, rfl⟩
      case inr.inr.inl =>
        rcases mem_dueEvent.mp hx with ⟨-, rfl⟩ | ⟨_, _, -, -, rfl⟩ <;> simp
      all_goals simp

end Due

end Sys2Proof.Machine

/-! What each family of orders leaves unchanged, in every state of the port: a part of the state that no change of the
family's kinds touches stands after the command. -/

namespace Sys2Proof.Machine

open Sys2Proof.Safety

/-! ### From the changes of one kind to the command -/

/-- A view of the state that neither the port, the latch nor an order of the kind changes. -/
theorem exec_order_view {α : Type} {view : State → α} {i : Instr} {kind : Byte} {f : OrderFrame} {s t : State}
    (ho : i.order? = some (kind, f)) (he : exec i s = .next t)
    (hport : ∀ s p, view { s with link := { s.link with port := p } } = view s)
    (hcollided : ∀ s, view (advanceCollisions s) = view s) (hlatched : ∀ e s, view (latch e s) = view s)
    (htaken : ∀ {s t}, OrderChange kind s t → view t = view s) : view t = view s :=
  exec_order_keeps (Inv := fun u => view u = view s) ho (fun u p h => (hport u p).trans h)
    (fun u h => (hcollided u).trans h) (fun e u h => (hlatched e u).trans h) (fun _ _ hc h => (htaken hc).trans h)
    rfl he

/-! ### What a playback change leaves of the Playback Controller -/

theorem actHold_play (s : State) :
    (actHold s).play = { s.play with state := (actHold s).play.state, freeze := (actHold s).play.freeze } := by
  unfold actHold
  split <;> rfl

theorem changeStop_play (change : MuteUnit → MuteUnit) (s : State) :
    (changeStop change s).play =
      { s.play with state := (changeStop change s).play.state, freeze := (changeStop change s).play.freeze } := by
  rw [changeStop_eq]
  split
  · exact actHold_play _
  · rfl

theorem fireMoves_base (r : CueRecord) (s : State) :
    (fireMoves r s).fade.base = s.fade.base ∧ (fireMoves r s).fade.lastCompleted = s.fade.lastCompleted := by
  unfold fireMoves
  refine List.foldlRecOn (motive := fun v : State => v.fade.base = s.fade.base
    ∧ v.fade.lastCompleted = s.fade.lastCompleted) r.moves _ ⟨rfl, rfl⟩ fun v hv m _ => ?_
  unfold fireMove
  split
  · exact hv
  · unfold FadeEngine.applyMove
    dsimp only
    split
    · exact hv
    · split <;> exact hv

/-! ### The views -/

section Views

variable {kind : Byte} {s t : State}

/-- All blocks but the Link Port and the Status Unit. -/
def showBlocks (s : State) :=
  (s.cues, s.play, s.fade, s.own, s.surface, s.mute, s.out, s.sup)

theorem statusKinds_keep (hc : OrderChange kind s t)
    (hk : kind ∈ [0x27, 0x28, 0x29, 0x33, 0x70, 0x71, 0x72, 0x73, 0x74]) : showBlocks t = showBlocks s := by
  cases hc with
  | cueRead => rfl
  | moveRead => rfl
  | tableInfo => rfl
  | targetRead => rfl
  | statusRead => rfl
  | statusReadClears => rfl
  | statusClear => rfl
  | statusMask => rfl
  | attentionConfig => rfl
  | addressMaskSet => rfl
  | _ => exact absurd hk (by decide)

/-- What an order of the Cue Store leaves alone. -/
def outsideCues (s : State) :=
  ({ s.play with standby := none }, s.fade, s.own, s.surface, s.mute, s.out, s.sup, s.link.mask)

theorem cueKinds_keep (hc : OrderChange kind s t) (hk : kind ∈ [0x20, 0x21, 0x22, 0x23, 0x24, 0x25, 0x26]) :
    outsideCues t = outsideCues s := by
  cases hc with
  | recordBegin => rfl
  | moveAdd => rfl
  | muteActionAdd => rfl
  | recordEnd => rfl
  | recordAbandon => rfl
  | recordLive => rfl
  | cueDelete => rfl
  | _ => exact absurd hk (by decide)

/-- What an order of the Playback Controller leaves alone. -/
def outsidePlay (s : State) :=
  (s.cues, s.own, s.surface, s.out, s.sup, s.fade.base, s.fade.lastCompleted, s.link.mask)

theorem playKinds_keep (hc : OrderChange kind s t) (hk : kind ∈ [0x10, 0x11, 0x12, 0x13, 0x14, 0x15, 0x75]) :
    outsidePlay t = outsidePlay s := by
  cases hc with
  | go =>
    rename_i r _ _
    obtain ⟨hbase, hlast⟩ := fireMoves_base r s
    unfold outsidePlay
    dsimp only
    rw [fire_fade, hbase, hlast]
  | hold => rfl
  | resume => rfl
  | goto => rfl
  | back => rfl
  | standbySet => rfl
  | playbackConfig => rfl
  | _ => exact absurd hk (by decide)

theorem pointerKinds_keep (hc : OrderChange kind s t) (hk : kind ∈ [0x11, 0x12, 0x13, 0x14, 0x15, 0x75]) :
    (t.fade, t.mute) = (s.fade, s.mute) := by
  cases hc with
  | hold => rfl
  | resume => rfl
  | goto => rfl
  | back => rfl
  | standbySet => rfl
  | playbackConfig => rfl
  | _ => exact absurd hk (by decide)

/-- What an order of the Group and Mute Unit leaves alone. -/
def outsideMute (s : State) :=
  (s.cues, s.fade, s.own, s.surface, s.out, s.sup, { s.play with state := .standby, freeze := false }, s.link.mask)

theorem muteKinds_keep (hc : OrderChange kind s t) (hk : kind ∈ [0x16, 0x17, 0x34, 0x35, 0x36, 0x37, 0x38]) :
    outsideMute t = outsideMute s := by
  cases hc with
  | stopSet => unfold outsideMute setStopFlag; rw [changeStop_play]
  | stopRelease => unfold outsideMute setStopFlag; rw [changeStop_play]
  | groupAssign => rfl
  | muteSet => rfl
  | muteGroupAssign => rfl
  | exemptSet => rfl
  | muteConfig => rfl
  | _ => exact absurd hk (by decide)

/-- What an order of the Ownership Unit leaves alone. -/
def outsideOwn (s : State) :=
  (s.cues, s.play, s.fade, s.surface, s.mute, s.out, s.sup, s.link.mask)

theorem ownKinds_keep (hc : OrderChange kind s t) (hk : kind ∈ [0x31, 0x32, 0x40, 0x41, 0x42]) :
    outsideOwn t = outsideOwn s := by
  cases hc with
  | park => rfl
  | unpark => rfl
  | bankAssign => rfl
  | pageSelect => rfl
  | surfaceConfig => rfl
  | _ => exact absurd hk (by decide)

/-- What an order of the Output Unit leaves alone. -/
def outsideOut (s : State) :=
  (s.cues, s.play, s.fade, s.own, s.surface, s.mute, s.sup, s.link.mask)

theorem outKinds_keep (hc : OrderChange kind s t) (hk : kind ∈ [0x50, 0x51, 0x52]) : outsideOut t = outsideOut s := by
  cases hc with
  | windowSet => rfl
  | windowClear => rfl
  | outputConfig => rfl
  | _ => exact absurd hk (by decide)

/-- What an order of the Link Supervisor leaves alone. -/
def outsideSup (s : State) :=
  (s.cues, s.fade, s.own, s.surface, s.mute, s.out, { s.play with state := .standby, follow := none }, s.link.mask)

theorem outsideSup_of_play {u : State} {play : Playback} {sup : Supervisor} {status : StatusUnit}
    (h : play = u.play ∨ ∃ r : Resolution, r.start = u.clock ∧ isStored u.cues.table r.goal = true
      ∧ play = { u.play with follow := none, state := .resolving r }) :
    outsideSup { u with play := play, sup := sup, status := status } = outsideSup u := by
  rcases h with h | ⟨r, -, -, h⟩ <;> rw [h] <;> rfl

theorem supKinds_keep (hc : OrderChange kind s t) (hk : kind ∈ [0x60, 0x61, 0x62]) : outsideSup t = outsideSup s := by
  cases hc with
  | heartbeatDisabled => rfl
  | heartbeat _ hu =>
    subst hu
    exact outsideSup_of_play (relink_play { s with sup := _ })
  | supervisionConfig => exact outsideSup_of_play (configureSupervision_play _ s)
  | reclaim => rfl
  | reclaimLinked => rfl
  | _ => exact absurd hk (by decide)

end Views

/-! ### The queue, the clock and the address -/

/-- What no command but the two of a full reset changes. -/
def modelParts (s : State) :=
  (s.pending, s.inReset, s.clock, s.choices, s.link.address)

theorem modelParts_change {s t : State} (hc : Change s t) : modelParts t = modelParts s := by
  unfold modelParts
  cases hc with
  | order hc => cases hc <;> rfl
  | _ => rfl

/-- Settles O54: the model's own parts from every change, each family's from the changes of its kinds. -/
theorem commandsKeepOtherBlocks : Obligations.CommandsKeepOtherBlocks := by
  refine ⟨fun i s t h1 h2 he => ?model, fun i kind f s t ho he => ⟨fun hk => ?status, fun hk => ?cues, fun hk => ?play,
    fun hk => ?pointers, fun hk => ?mute, fun hk => ?own, fun hk => ?out, fun hk => ?sup⟩⟩
  case model =>
    have hkept : modelParts t = modelParts s :=
      (keeps_of_change (Inv := fun u => modelParts u = modelParts s) fun hc h => (modelParts_change hc).trans h).exec
        h1 h2 rfl he
    simpa [modelParts] using hkept
  case status =>
    have hkept := exec_order_view (view := showBlocks) ho he (fun _ _ => rfl) (fun _ => rfl) (fun _ _ => rfl)
      fun hc => statusKinds_keep hc hk
    simpa [showBlocks] using hkept
  case cues =>
    have hkept := exec_order_view (view := outsideCues) ho he (fun _ _ => rfl) (fun _ => rfl) (fun _ _ => rfl)
      fun hc => cueKinds_keep hc hk
    obtain ⟨hplay, hrest⟩ := Prod.ext_iff.mp hkept
    exact ⟨congrArg (fun u : Playback => { u with standby := t.play.standby }) hplay,
      by simpa [outsideCues] using hrest⟩
  case play =>
    have hkept := exec_order_view (view := outsidePlay) ho he (fun _ _ => rfl) (fun _ => rfl) (fun _ _ => rfl)
      fun hc => playKinds_keep hc hk
    simpa [outsidePlay] using hkept
  case pointers =>
    have hkept := exec_order_view (view := fun u => (u.fade, u.mute)) ho he (fun _ _ => rfl) (fun _ => rfl)
      (fun _ _ => rfl) fun hc => pointerKinds_keep hc hk
    exact Prod.mk.inj hkept
  case mute =>
    have hkept := exec_order_view (view := outsideMute) ho he (fun _ _ => rfl) (fun _ => rfl) (fun _ _ => rfl)
      fun hc => muteKinds_keep hc hk
    unfold outsideMute at hkept
    simp only [Prod.mk.injEq] at hkept
    obtain ⟨hcues, hfade, hown, hsurface, hout, hsup, hplay, hmask⟩ := hkept
    exact ⟨hcues, hfade, hown, hsurface, hout, hsup,
      congrArg (fun u : Playback => { u with state := t.play.state, freeze := t.play.freeze }) hplay, hmask⟩
  case own =>
    have hkept := exec_order_view (view := outsideOwn) ho he (fun _ _ => rfl) (fun _ => rfl) (fun _ _ => rfl)
      fun hc => ownKinds_keep hc hk
    simpa [outsideOwn] using hkept
  case out =>
    have hkept := exec_order_view (view := outsideOut) ho he (fun _ _ => rfl) (fun _ => rfl) (fun _ _ => rfl)
      fun hc => outKinds_keep hc hk
    simpa [outsideOut] using hkept
  case sup =>
    have hkept := exec_order_view (view := outsideSup) ho he (fun _ _ => rfl) (fun _ => rfl) (fun _ _ => rfl)
      fun hc => supKinds_keep hc hk
    unfold outsideSup at hkept
    simp only [Prod.mk.injEq] at hkept
    obtain ⟨hcues, hfade, hown, hsurface, hmute, hout, hplay, hmask⟩ := hkept
    exact ⟨hcues, hfade, hown, hsurface, hmute, hout,
      congrArg (fun u : Playback => { u with state := t.play.state, follow := t.play.follow }) hplay, hmask⟩

end Sys2Proof.Machine

/-! The show link: orders and their frames (R155–R158), the receiver (R157), the checks every order shares (R160, R174),
and the frames and answers that are lost (R157, R163, R164). -/

namespace Sys2Proof

/-! ### Orders and frames -/

theorem nat8_toNat {n : Nat} (h : n < 256) : (nat8 n).toNat = n := by
  unfold nat8
  rw [BitVec.toNat_ofNat, Nat.mod_eq_of_lt h]

theorem maxPayload_le (address : Byte) : maxPayload address ≤ 52 := by
  unfold maxPayload
  split <;> decide

theorem fits_length {f : OrderFrame} (h : f.fits = true) : f.payload.length ≤ maxPayload f.address :=
  of_decide_eq_true h

theorem lengthByte_toNat {f : OrderFrame} (h : f.fits = true) : (nat8 f.payload.length).toNat = f.payload.length :=
  nat8_toNat (by have := fits_length h; have := maxPayload_le f.address; omega)

theorem frameBody_eq (kind : Byte) (f : OrderFrame) : frameBody kind f =
    f.address :: kind :: f.tag :: nat8 f.payload.length :: (f.payload ++ wordBytes (frameCheck kind f)) := rfl

theorem frameBody_length (kind : Byte) (f : OrderFrame) : (frameBody kind f).length = f.payload.length + 6 := by
  rw [frameBody_eq]
  simp [wordBytes]

/-- The bytes of a frame split into the frame again (R155, R156). -/
theorem splitFrame_frameBody {f : OrderFrame} (kind : Byte) (h : f.fits = true) :
    splitFrame (frameBody kind f) = some (kind, f) := by
  have hlength := lengthByte_toNat h
  have hmax := fits_length h
  have hrest : (f.payload ++ wordBytes (frameCheck kind f)).length = f.payload.length + 2 := by simp [wordBytes]
  rw [frameBody_eq]
  unfold splitFrame
  dsimp only
  rw [hlength, List.take_left, List.drop_left]
  exact if_pos ⟨hmax, hrest, rfl⟩

theorem orderOfKind_order {i : Instr} {kind : Byte} {f : OrderFrame} (h : i.order? = some (kind, f)) :
    orderOfKind kind f = some i := by
  cases i <;> cases h <;> rfl

theorem order_fits {i : Instr} {kind : Byte} {f : OrderFrame} (h : i.order? = some (kind, f)) (hwf : i.wf = true) :
    f.fits = true := by
  have horder : f.orderWf = true := by cases i <;> cases h <;> exact hwf
  exact (Bool.and_eq_true_iff.mp horder).1

/-- Settles O4: the frame's bytes split into the frame again, whose kind names the order. -/
theorem ordersRoundTrip : Obligations.OrdersRoundTrip := by
  intro i bytes hwf hbytes
  obtain ⟨⟨kind, f⟩, horder, rfl⟩ := Option.map_eq_some_iff.mp hbytes
  unfold decodeFrame frameBytes
  dsimp only
  rw [if_pos rfl, splitFrame_frameBody kind (order_fits horder hwf)]
  exact orderOfKind_order horder

end Sys2Proof

namespace Sys2Proof.Machine

open Sys2Proof.Safety

/-- An event that changes no present state does what its action says. -/
theorem event_quiet {act : State → State} {s t : State} (hr : s.inReset = false) (hact : act s = t)
    (hp : present s = present t) : event act s = .next t := by
  rw [event_run hr, hact, noteChanges_same hp]

/-! ### The receiver (R157) -/

section Receiver

variable {s : State}

/-- Bytes after the lead that are no whole frame yet. -/
def Unfinished (bytes : List Byte) : Prop :=
  bytes.length < 4 ∨ (byteAt bytes 3 ≤ maxPayload (bytes.getD 0 0) ∧ bytes.length < byteAt bytes 3 + 6)

theorem gather_unfinished {bytes : List Byte} (h : Unfinished bytes) (s : State) :
    gather bytes s = portReceive bytes s := by
  unfold gather
  rcases Nat.lt_or_ge bytes.length 4 with h4 | h4
  · rw [if_pos h4]
  · obtain ⟨hmax, hlength⟩ := h.resolve_left (Nat.not_lt.mpr h4)
    rw [if_neg (Nat.not_lt.mpr h4), if_neg (Nat.not_lt.mpr hmax), if_pos hlength]

theorem gather_whole {bytes : List Byte} (h4 : 4 ≤ bytes.length) (hmax : byteAt bytes 3 ≤ maxPayload (bytes.getD 0 0))
    (hlength : byteAt bytes 3 + 6 ≤ bytes.length) (s : State) : gather bytes s = judgeFrame bytes s := by
  unfold gather
  rw [if_neg (Nat.not_lt.mpr h4), if_neg (Nat.not_lt.mpr hmax), if_neg (Nat.not_lt.mpr hlength)]

theorem gather_tooLong {bytes : List Byte} (h4 : 4 ≤ bytes.length)
    (hmax : maxPayload (bytes.getD 0 0) < byteAt bytes 3) (s : State) : gather bytes s = dropFrame s := by
  unfold gather
  rw [if_neg (Nat.not_lt.mpr h4), if_pos hmax]

theorem linkByte_receive (gathered : List Byte) (s : State) (b : Byte) :
    linkByte false (portReceive gathered s) b = gather (gathered ++ [b]) (portReceive gathered s) := rfl

/-- Bytes that leave the frame unfinished are gathered. -/
theorem linkBytes_gathers {g rest : List Byte} (s : State)
    (h : ∀ m, g.length < m → m ≤ (g ++ rest).length → Unfinished ((g ++ rest).take m)) :
    linkBytes rest (portReceive g s) = portReceive (g ++ rest) s := by
  induction rest generalizing g with
  | nil => rw [List.append_nil]; rfl
  | cons b rest ih =>
    have hb : (g ++ b :: rest).take (g.length + 1) = g ++ [b] := List.take_length_add_append 1
    have hfirst : Unfinished (g ++ [b]) := hb ▸ h (g.length + 1) (Nat.lt_succ_self _) (by simp)
    have hassoc : g ++ b :: rest = (g ++ [b]) ++ rest := by simp
    change linkBytes rest (linkByte false (portReceive g s) b) = _
    rw [linkByte_receive, gather_unfinished hfirst, hassoc]
    refine ih fun m hm hle => ?_
    rw [← hassoc]
    refine h m ?_ ?_
    · rw [List.length_append] at hm; exact Nat.lt_of_succ_lt hm
    · rw [hassoc]; exact hle

theorem linkByte_lead (h : s.link.port = .hunt) : linkByte false s linkLead = portReceive [] s := by
  unfold linkByte
  rw [h]
  rfl

/-- A lead in HUNT and the beginning of a frame stand in RECEIVE. -/
theorem linkBytes_begun {bytes : List Byte} (hport : s.link.port = .hunt)
    (h : ∀ m ≤ bytes.length, 0 < m → Unfinished (bytes.take m)) :
    linkBytes (linkLead :: bytes) s = portReceive bytes s := by
  change linkBytes bytes (linkByte false s linkLead) = _
  rw [linkByte_lead hport]
  exact linkBytes_gathers s fun m hm hle => h m hle hm

theorem unfinished_short {bytes : List Byte} (h : bytes.length < 4) (m : Nat) : Unfinished (bytes.take m) :=
  .inl (Nat.lt_of_le_of_lt (List.length_take_le' _ _) h)

/-- A frame that has not all of its bytes yet. -/
theorem unfinished_frame {address kind tag length : Byte} {tail : List Byte} {m : Nat}
    (hmax : length.toNat ≤ maxPayload address) (hm : m < length.toNat + 6) :
    Unfinished ((address :: kind :: tag :: length :: tail).take m) := by
  rcases Nat.lt_or_ge m 4 with h4 | h4
  · exact .inl (Nat.lt_of_le_of_lt (List.length_take_le _ _) h4)
  · obtain ⟨n, rfl⟩ := Nat.exists_eq_add_of_le' h4
    refine .inr ⟨hmax, ?_⟩
    exact Nat.lt_of_le_of_lt (List.length_take_le _ _) hm

theorem completedFrame_receive (kind : Byte) (f : OrderFrame) (g : List Byte) (s : State) :
    completedFrame kind f (portReceive g s) = completedFrame kind f s := rfl

/-- A whole frame, byte by byte from HUNT, is a completed frame. -/
theorem linkBytes_frame {f : OrderFrame} (kind : Byte) (hfits : f.fits = true) (hport : s.link.port = .hunt) :
    linkBytes (frameBytes kind f) s = noteChanges s (completedFrame kind f s) := by
  have hlength := lengthByte_toNat hfits
  have hmax := fits_length hfits
  obtain ⟨init, last, hbody⟩ : ∃ init last, frameBody kind f = init ++ [last] :=
    ⟨_, _, (List.dropLast_concat_getLast (by rw [frameBody_eq]; exact List.cons_ne_nil _ _)).symm⟩
  have hinit : init.length = f.payload.length + 5 := by
    have := frameBody_length kind f
    rw [hbody, List.length_append, List.length_singleton] at this
    omega
  have htake : ∀ m ≤ init.length, init.take m = (frameBody kind f).take m := fun m hm => by
    rw [hbody, List.take_append_of_le_length hm]
  have hbegun : linkBytes (linkLead :: init) s = portReceive init s := by
    refine linkBytes_begun hport fun m hm _ => ?_
    rw [htake m hm, frameBody_eq]
    exact unfinished_frame (by rw [hlength]; exact hmax) (by rw [hlength]; omega)
  have hwhole : gather (frameBody kind f) (portReceive init s) =
      judgeFrame (frameBody kind f) (portReceive init s) := by
    have hat : byteAt (frameBody kind f) 3 = f.payload.length := hlength
    refine gather_whole ?_ ?_ ?_ _
    · rw [frameBody_length]; omega
    · rw [hat]; exact hmax
    · exact Nat.le_of_eq (by rw [hat, frameBody_length])
  have hsplit : linkBytes (frameBytes kind f) s = linkByte false (linkBytes (linkLead :: init) s) last := by
    unfold frameBytes linkBytes
    rw [hbody, ← List.cons_append, List.foldl_append]
    rfl
  rw [hsplit, hbegun, linkByte_receive, ← hbody, hwhole]
  unfold judgeFrame
  rw [splitFrame_frameBody kind hfits]
  dsimp only
  rw [completedFrame_receive]
  rfl

theorem exec_frame {i : Instr} {kind : Byte} {f : OrderFrame}
    (h : i.order? = some (kind, f) ∨ i = .unknownOrder kind f ∨ i = .ignoredFrame kind f) (s : State) :
    exec i s = event (arrive (completedFrame kind f)) s := by
  rcases h with h | rfl | rfl
  · exact exec_order h s
  · rfl
  · rfl

/-- Settles O5: the frame's bytes are gathered up to the last, which completes the frame. -/
theorem receiverTakesWholeFrames : Obligations.ReceiverTakesWholeFrames := by
  intro i kind f s hi hfits hlistening
  obtain ⟨hr, hport⟩ := hlistening
  rw [exec_frame hi, event_run hr, arrive_hunt hport, linkBytes_frame kind hfits hport]

end Receiver

/-! ### Address matching (R158, R163) -/

section Matching

variable {unit mask : Address} {a : Byte}

theorem highBits_iff : (a.getLsbD 7 || a.getLsbD 6 || a.getLsbD 5) = false ↔ a.toNat < 32 := by
  revert a
  decide

theorem setWidth_eq_iff (h : a.toNat < 32) : a.setWidth 5 = unit ↔ a.toNat = unit.toNat := by
  rw [← BitVec.toNat_inj, BitVec.toNat_setWidth, Nat.mod_eq_of_lt h]

/-- The differing bits are all set in the mask. -/
theorem maskedBits_iff : (a.setWidth 5 ^^^ unit) &&& ~~~mask = 0 ↔
    ∀ k < 5, a.getLsbD k ≠ unit.getLsbD k → mask.getLsbD k = true := by
  constructor
  · intro h k hk hne
    have hbit := congrArg (fun w : Address => w.getLsbD k) h
    simp only [BitVec.getLsbD_and, BitVec.getLsbD_xor, BitVec.getLsbD_setWidth, BitVec.getLsbD_not, hk, decide_true,
      Bool.true_and] at hbit
    refine Decidable.byContradiction fun hmask => ?_
    cases ha : a.getLsbD k <;> cases hu : unit.getLsbD k <;> simp_all
  · intro h
    apply BitVec.eq_of_getLsbD_eq
    intro k hk
    have hbit := h k hk
    simp only [BitVec.getLsbD_and, BitVec.getLsbD_xor, BitVec.getLsbD_setWidth, BitVec.getLsbD_not, hk, decide_true,
      Bool.true_and]
    cases ha : a.getLsbD k <;> cases hu : unit.getLsbD k <;> simp_all

theorem matchAddress_of_high (h : ¬a.toNat < 32) : matchAddress unit mask a = .none := by
  unfold matchAddress
  rw [if_pos (Bool.of_not_eq_false fun e => h (highBits_iff.mp e))]

theorem matchAddress_of_low (h : a.toNat < 32) : matchAddress unit mask a =
    if a.toNat = unit.toNat then .exact
    else if (a.setWidth 5 ^^^ unit) &&& ~~~mask = 0 then .masked else .none := by
  unfold matchAddress
  rw [highBits_iff.mpr h, if_neg (by decide)]
  simp only [setWidth_eq_iff h]

theorem matchAddress_exact_iff : matchAddress unit mask a = .exact ↔ a.toNat = unit.toNat := by
  have hunit := unit.isLt
  by_cases h : a.toNat < 32
  · rw [matchAddress_of_low h]
    split
    next he => exact iff_of_true rfl he
    next he =>
      refine iff_of_false ?_ he
      split <;> decide
  · rw [matchAddress_of_high h]
    exact iff_of_false (by decide) (by omega)

theorem matchAddress_masked_iff : matchAddress unit mask a = .masked ↔
    a.toNat < 32 ∧ a.toNat ≠ unit.toNat ∧ ∀ k < 5, a.getLsbD k ≠ unit.getLsbD k → mask.getLsbD k = true := by
  by_cases h : a.toNat < 32
  · rw [matchAddress_of_low h, ← maskedBits_iff]
    split
    next he => exact iff_of_false (by decide) fun ⟨_, hne, _⟩ => hne he
    next he =>
      split
      next hm => exact iff_of_true rfl ⟨h, he, hm⟩
      next hm => exact iff_of_false (by decide) fun ⟨_, _, h⟩ => hm h
  · rw [matchAddress_of_high h]
    exact iff_of_false (by decide) fun ⟨hlt, _⟩ => h hlt

/-- Settles O6: the three matches by the address bits, and the frame in each state of the port. -/
theorem framesFindTheUnit : Obligations.FramesFindTheUnit := by
  refine ⟨⟨fun unit mask a => ⟨matchAddress_exact_iff, matchAddress_masked_iff⟩,
    fun i kind f s hi hfits hlistening hnone => ?unmatched⟩, fun i kind f s ho hr => ⟨fun g hg => ?receive,
      fun a ha => ?pending, fun a ha => ?sending⟩⟩
  case unmatched =>
    obtain ⟨hr, hport⟩ := hlistening
    have hframe : i.order? = some (kind, f) ∨ i = .unknownOrder kind f ∨ i = .ignoredFrame kind f :=
      hi.imp_right .inr
    rw [exec_frame hframe, event_run hr, arrive_hunt hport, completedFrame, takeFrame_none (fits_length hfits) hnone,
      portHunt_of_hunt hport, noteChanges_same rfl]
  case receive =>
    have hs : arrive (completedFrame kind f) s = completedFrame kind f s := by unfold arrive; rw [hg]
    rw [exec_order ho, exec_order ho, event_run hr, event_run (s := portHunt s) hr, hs, arrive_hunt rfl]
    rfl
  case pending =>
    have hs : arrive (completedFrame kind f) s = completedFrame kind f (loseAnswer s) := by unfold arrive; rw [ha]
    rw [exec_order ho, exec_order ho, event_run hr, event_run (s := loseAnswer s) hr, hs, arrive_hunt rfl]
    rfl
  case sending =>
    have hs : arrive (completedFrame kind f) s = s := by unfold arrive; rw [ha]
    rw [exec_order ho, event_run hr, hs, noteChanges_same rfl]

end Matching

/-! ### The checks every order shares (R160, R161, R174) -/

section SharedChecks

variable {i : Instr} {kind : Byte} {f : OrderFrame} {s : State} {o : OrderSpec}

/-- What section 9.7 and the rules say of a kind, against its specification. -/
structure SpecFits (kind : Byte) (o : OrderSpec) : Prop where
  length : ∀ n ≤ 48, o.lengthOk n = true ↔ n ∈ payloadLengths kind
  masked : o.maskedIgnored = decide (kind ∈ ignoredWhenMasked)
  localMode : o.refusedLocal = decide (kind ∉ acceptedInLocal)

/-- A kind of one fixed length. -/
theorem fixedLength_iff {n k : Nat} : (n == k) = true ↔ n ∈ [k] := by
  simp

theorem moveAddSpec_lengthOk : ∀ n ≤ 48, moveAddSpec.lengthOk n = true ↔ n ∈ payloadLengths 0x21 := by
  decide

theorem muteActionAddSpec_lengthOk : ∀ n ≤ 48, muteActionAddSpec.lengthOk n = true ↔ n ∈ payloadLengths 0x22 := by
  decide

theorem order_spec (h : i.order? = some (kind, f)) : ∃ o, orderSpec kind = some o ∧ SpecFits kind o := by
  cases i <;> cases h
  all_goals refine ⟨_, rfl, ?_, rfl, rfl⟩
  case moveAdd => exact moveAddSpec_lengthOk
  case muteActionAdd => exact muteActionAddSpec_lengthOk
  all_goals exact fun n _ => fixedLength_iff

theorem orderSpec_unlisted : ∀ kind : Byte, kindListed kind = false → orderSpec kind = none := by
  intro kind h
  have hsome : ∀ kind : Byte, kindListed kind = false → (orderSpec kind).isSome = false := by decide
  exact Option.not_isSome_iff_eq_none.mp (Bool.eq_false_iff.mp (hsome kind h))

theorem payloadLengths_le : ∀ kind : Byte, ∀ n ∈ payloadLengths kind, n ≤ 48 := by
  decide

/-- The kinds that a masked match ignores are all accepted in LOCAL mode. -/
theorem acceptedInLocal_of_ignored : ∀ kind ∈ ignoredWhenMasked, kind ∈ acceptedInLocal := by
  decide

theorem judgeOrder_length {p : List Byte} (h : o.lengthOk p.length = false) :
    judgeOrder o p s = .refuse .length [] :=
  if_pos h

theorem judgeOrder_local {p : List Byte} (hl : o.lengthOk p.length = true) (hr : o.refusedLocal = true)
    (hm : s.sup.localMode = true) : judgeOrder o p s = .refuse .localMode [] := by
  unfold judgeOrder
  rw [hl, hr, hm]
  rfl

/-- A kind that is not listed is refused whatever its payload (R160, step 1). -/
theorem unknownOrder_refused (hk : kindListed kind = false) (h48 : f.payload.length ≤ 48) :
    RefusedAs (.unknownOrder kind f) kind f s .unknown [] := by
  have hspec : (orderSpec kind).getD unknownSpec = unknownSpec := by rw [orderSpec_unlisted kind hk]; rfl
  have hexec : exec (.unknownOrder kind f) s = event (arrive (completedFrame kind f)) s := rfl
  refine ⟨fun ⟨⟨hr, hport⟩, ha⟩ => ?_, fun ⟨⟨hr, hport⟩, hlt, hne, hm⟩ => ?_⟩
  · have hmax : maxPayload f.address = 48 := maxPayload_of_lt (by rw [ha]; exact unit_lt _)
    rw [hexec, event_run hr, arrive_hunt hport, completedFrame, takeFrame_exact (by omega)
      (by rw [ha]; exact matchAddress_unit _ _), portHunt_of_hunt hport, hspec]
    exact congrArg _ (noteChanges_pendAnswer _ _ _ _ _)
  · have hmax : maxPayload f.address = 48 := maxPayload_of_lt hlt
    rw [hexec, event_run hr, arrive_hunt hport, completedFrame, takeFrame_masked (by omega)
      (matchAddress_masked hlt hne hm), portHunt_of_hunt hport, hspec]
    exact congrArg _ (noteChanges_latch _ _)

/-- Settles O7: the three shared checks in their order, for every kind by what its specification says. -/
theorem sharedChecks : Obligations.SharedChecks := by
  refine ⟨fun kind f s hk h48 => unknownOrder_refused hk h48, fun i kind f s ho h48 hlength => ?length,
    fun i kind f s ho hlength hm hlocal => ?localMode⟩
  case length =>
    obtain ⟨o, hs, hfits⟩ := order_spec ho
    have hj : judgeOrder o f.payload s = .refuse .length [] :=
      judgeOrder_length (Bool.eq_false_iff.mpr fun e => hlength ((hfits.length _ h48).mp e))
    split
    next hk => exact readRefusedAs ho hs h48 (hfits.masked.trans (decide_eq_true hk)) (by decide) hj
    next hk => exact refusedAs ho hs h48 (hfits.masked.trans (decide_eq_false hk)) (by decide) hj
  case localMode =>
    obtain ⟨o, hs, hfits⟩ := order_spec ho
    have h48 : f.payload.length ≤ 48 := payloadLengths_le kind _ hlength
    have hmasked : kind ∉ ignoredWhenMasked := fun e => hlocal (acceptedInLocal_of_ignored kind e)
    exact refusedAs ho hs h48 (hfits.masked.trans (decide_eq_false hmasked)) (by decide)
      (judgeOrder_local ((hfits.length _ h48).mpr hlength) (hfits.localMode.trans (decide_eq_true hlocal)) hm)

end SharedChecks

/-! ### Frames and answers lost (R157, R163, R164) -/

section FramesLost

variable {s : State}

theorem received_run (h : s.inReset = false) (act : State → State) : received act s = .next (act s) := by
  unfold received
  rw [h]
  rfl

theorem frameAbandon_run (h : s.inReset = false) (bytes : List Byte) (last : Byte) (fault : Bool) :
    exec (.frameAbandon bytes last fault) s = .next (linkByte fault (linkBytes bytes s) last) :=
  received_run h fun s => linkByte fault (linkBytes bytes s) last

theorem frameGapExpiry_run (h : s.inReset = false) (bytes : List Byte) :
    exec (.frameGapExpiry bytes) s = .next (linkGap (linkBytes bytes s)) :=
  received_run h fun s => linkGap (linkBytes bytes s)

theorem dropFrame_of_hunt (h : s.link.port = .hunt) : dropFrame s = latch .frameError s := by
  unfold dropFrame
  rw [portHunt_of_hunt h]

theorem dropFrame_receive (g : List Byte) (s : State) : dropFrame (portReceive g s) = dropFrame s := rfl

theorem linkByte_fault_receive {g : List Byte} (h : s.link.port = .receive g) (b : Byte) :
    linkByte true s b = dropFrame s := by
  unfold linkByte
  rw [h]
  rfl

theorem linkByte_fault_hunt (h : s.link.port = .hunt) (b : Byte) : linkByte true s b = s := by
  unfold linkByte huntByte
  rw [h]
  exact if_neg fun hb => absurd hb.2 (by decide)

theorem linkGap_receive {g : List Byte} (h : s.link.port = .receive g) : linkGap s = dropFrame s := by
  unfold linkGap
  rw [h]

theorem linkGap_hunt (h : s.link.port = .hunt) : linkGap s = s := by
  unfold linkGap
  rw [h]

/-- Damaged frames (R157). -/
theorem damagedFrames :
    (∀ kind f check s, Listening s → check ≠ frameCheck kind f →
      exec (.frameCheckFail kind f check) s = .next (latch .frameError s))
    ∧ (∀ gathered last s, s.inReset = false → s.link.port = .receive gathered →
        exec (.frameAbandon [] last true) s = .next (latch .frameError (portHunt s))
          ∧ exec (.frameGapExpiry []) s = .next (latch .frameError (portHunt s)))
    ∧ (∀ address kind tag length s, Listening s → maxPayload address < length.toNat →
        exec (.frameAbandon [linkLead, address, kind, tag] length false) s = .next (latch .frameError s))
    ∧ (∀ bytes s, Listening s → bytes.length < 4 →
        exec (.frameGapExpiry (linkLead :: bytes)) s = .next (latch .frameError s)
          ∧ ∀ last, exec (.frameAbandon (linkLead :: bytes) last true) s = .next (latch .frameError s))
    ∧ ∀ last s, Listening s →
        exec (.frameAbandon [] last true) s = .next s ∧ exec (.frameGapExpiry []) s = .next s := by
  refine ⟨fun kind f check s hl hcheck => ?check, fun g last s hr hport => ⟨?fault, ?gap⟩,
    fun address kind tag length s hl hmax => ?long, fun bytes s hl hshort => ⟨?shortGap, fun last => ?shortFault⟩,
    fun last s hl => ⟨?huntFault, ?huntGap⟩⟩
  case check =>
    obtain ⟨hr, hport⟩ := hl
    change event (arrive (checkedFrame kind f check)) s = _
    rw [event_run hr, arrive_hunt hport, checkedFrame, if_neg hcheck, dropFrame_of_hunt hport, noteChanges_latch]
  case fault => rw [frameAbandon_run hr]; exact congrArg _ (linkByte_fault_receive hport last)
  case gap => rw [frameGapExpiry_run hr]; exact congrArg _ (linkGap_receive hport)
  case long =>
    obtain ⟨hr, hport⟩ := hl
    have hbegun : linkBytes [linkLead, address, kind, tag] s = portReceive [address, kind, tag] s :=
      linkBytes_begun hport fun m _ _ => unfinished_short (bytes := [address, kind, tag]) (Nat.lt_succ_self _) m
    have hlong : gather ([address, kind, tag] ++ [length]) (portReceive [address, kind, tag] s) = dropFrame s :=
      gather_tooLong (bytes := [address, kind, tag] ++ [length]) (Nat.le_refl 4) hmax _
    rw [frameAbandon_run hr, hbegun, linkByte_receive, hlong, dropFrame_of_hunt hport]
  case shortGap =>
    obtain ⟨hr, hport⟩ := hl
    rw [frameGapExpiry_run hr, linkBytes_begun hport fun m _ _ => unfinished_short hshort m, linkGap_receive rfl,
      dropFrame_receive, dropFrame_of_hunt hport]
  case shortFault =>
    obtain ⟨hr, hport⟩ := hl
    rw [frameAbandon_run hr, linkBytes_begun hport fun m _ _ => unfinished_short hshort m, linkByte_fault_receive rfl,
      dropFrame_receive, dropFrame_of_hunt hport]
  case huntFault => rw [frameAbandon_run hl.1]; exact congrArg _ (linkByte_fault_hunt hl.2 last)
  case huntGap => rw [frameGapExpiry_run hl.1]; exact congrArg _ (linkGap_hunt hl.2)

section Answer

variable {a : LinkAnswer}

theorem answerSend_pending (hr : s.inReset = false) (h : s.link.port = .answerPending a) :
    exec .answerSend s = .next { s with link := { s.link with port := .sending a } } := by
  have hact : actAnswerSend s = { s with link := { s.link with port := .sending a } } := by
    unfold actAnswerSend
    rw [h]
  exact event_quiet hr hact rfl

theorem answerSent_sending (hr : s.inReset = false) (h : s.link.port = .sending a) :
    exec .answerSent s = .next { s with link := { s.link with port := .hunt } } := by
  have hact : actAnswerSent s = portHunt s := by
    unfold actAnswerSent
    rw [h]
  exact event_quiet hr hact rfl

/-- A byte in ANSWER PENDING costs the answer and meets the receiver in HUNT (R163, R164). -/
theorem pendingCollision (hr : s.inReset = false) (h : s.link.port = .answerPending a) (b : Byte) (fault : Bool) :
    exec (.answerPendingCollision b fault) s = .next (latch .frameError { s with link := { s.link with
      port := if b = linkLead ∧ fault = false then .receive [] else .hunt
      collisions := min 65535 (s.link.collisions + 1) } }) := by
  have hact : actAnswerPendingCollision b fault s = huntByte b fault (loseAnswer s) := by
    unfold actAnswerPendingCollision linkByte
    rw [h]
  unfold huntByte at hact
  split at hact
  next hlead => rw [if_pos hlead]; exact event_quiet hr hact rfl
  next hlead => rw [if_neg hlead]; exact event_quiet hr hact rfl

theorem readback (hr : s.inReset = false) (h : s.link.port = .sending a) {index : Nat} {sent : Byte}
    (hsent : a.bytes[index]? = some sent) (b : Byte) (fault : Bool) :
    exec (.readbackCollision index b fault) s =
      .next (if b = sent ∧ fault = false then s else loseAnswer s) := by
  have hact : actReadbackCollision index b fault s = if b = sent ∧ fault = false then s else loseAnswer s := by
    unfold actReadbackCollision
    rw [h]
    dsimp only
    rw [hsent]
  refine event_quiet hr hact ?_
  split <;> rfl

end Answer

/-- Settles O8, from the damaged frames and the answer's two states. -/
theorem framesLost : Obligations.FramesLost := by
  refine ⟨damagedFrames, fun a s hr => ⟨fun h => ⟨answerSend_pending hr h, pendingCollision hr h⟩,
    fun h => ⟨answerSent_sending hr h, fun index sent b fault hsent => ⟨fun hdiffers => ?_, fun hb hfault => ?_⟩⟩⟩⟩
  · rw [readback hr h hsent, if_neg fun ⟨hb, hfault⟩ => hdiffers.elim (· hb) (by rw [hfault]; decide)]
    rfl
  · rw [readback hr h hsent, if_pos ⟨hb, hfault⟩]

end FramesLost

end Sys2Proof.Machine

/-! The layouts of frames, answers and reports (sections 9.6 and 9.9). -/

namespace Sys2Proof.Machine

open Sys2Proof.Safety

section Layouts

theorem wordBytes_eq (w : Word16) : wordBytes w = [BitVec.ofNat 8 (w.toNat / 256), BitVec.ofNat 8 w.toNat] := by
  have hhigh : (w >>> 8).setWidth 8 = BitVec.ofNat 8 (w.toNat / 256) := by
    apply BitVec.eq_of_toNat_eq
    simp [Nat.shiftRight_eq_div_pow]
  have hlow : w.setWidth 8 = BitVec.ofNat 8 w.toNat := by
    apply BitVec.eq_of_toNat_eq
    simp
  unfold wordBytes
  rw [hhigh, hlow]

theorem nat16_eq (n : Nat) : nat16 n = [BitVec.ofNat 8 (n / 256), BitVec.ofNat 8 n] := by
  have hhigh : BitVec.ofNat 8 (n % 65536 / 256) = BitVec.ofNat 8 (n / 256) := by
    apply BitVec.eq_of_toNat_eq
    simp only [BitVec.toNat_ofNat]
    omega
  have hlow : BitVec.ofNat 8 (n % 65536) = BitVec.ofNat 8 n := by
    apply BitVec.eq_of_toNat_eq
    simp only [BitVec.toNat_ofNat]
    omega
  unfold nat16
  rw [wordBytes_eq, BitVec.toNat_ofNat]
  change [BitVec.ofNat 8 (n % 65536 / 256), BitVec.ofNat 8 (n % 65536)] = _
  rw [hhigh, hlow]

theorem crcShift_eq :
    crcShift = fun r : Word16 => if r.getLsbD 15 then (r <<< 1) ^^^ 0x1021#16 else r <<< 1 := by
  funext r
  unfold crcShift
  rw [BitVec.msb_eq_getLsbD_last]

theorem crc16_append (bytes : List Byte) (b : Byte) : crc16 (bytes ++ [b]) =
    Nat.repeat (fun r : Word16 => if r.getLsbD 15 then (r <<< 1) ^^^ 0x1021#16 else r <<< 1) 8
      (crc16 bytes ^^^ (b.setWidth 16 <<< 8)) := by
  unfold crc16
  rw [List.foldl_append, ← crcShift_eq]
  rfl

theorem wordBytes_length (w : Word16) : (wordBytes w).length = 2 := rfl

/-- Words of two bytes each. -/
theorem flatMap_length_two {α : Type} {bytes : α → List Byte} (h : ∀ a, (bytes a).length = 2) (l : List α) :
    (l.flatMap bytes).length = 2 * l.length := by
  induction l with
  | nil => rfl
  | cons a l ih => rw [List.flatMap_cons, List.length_append, h, ih, List.length_cons]; omega

theorem motorWord_length (w : MotorWord) : w.bytes.length = 2 := by
  cases w <;> rfl

theorem motorWord_bytes : MotorWord.bytes = fun w =>
    match w with
    | .leave => [0xFF#8, 0xFF#8]
    | .drive position => nat16 position := by
  funext w
  cases w with
  | leave => decide
  | drive => rfl

theorem motorFrame_length (m : MotorFrame) : m.bytes.length = 37 := by
  unfold MotorFrame.bytes
  simp [flatMap_length_two motorWord_length, wordBytes_length]

theorem gainFrame_length (g : GainFrame) : g.bytes.length = 260 := by
  unfold GainFrame.bytes
  simp [flatMap_length_two (fun c : LevelCode => wordBytes_length c.word), wordBytes_length]

/-- A level is carried as its value in two's complement (R167). -/
theorem levelWord_toInt {v : Int} (hlow : -900 ≤ v) (hhigh : v ≤ 100) : (LevelCode.level v).word.toInt = v := by
  change (BitVec.ofInt 16 v).toInt = v
  rw [BitVec.toInt_ofInt]
  exact Int.bmod_eq_of_le (by omega) (by omega)

/-- Settles O9, layout by layout. -/
theorem framesLaidOut : Obligations.FramesLaidOut := by
  refine ⟨wordBytes_eq, fun n => ⟨rfl, nat16_eq n, rfl⟩, rfl, crc16_append, by decide +kernel,
    fun kind tag result data s => ⟨_, rfl, rfl, rfl⟩, fun m => ⟨?_, motorFrame_length m⟩,
    fun g => ⟨rfl, gainFrame_length g⟩, rfl, fun v hlow hhigh => levelWord_toInt hlow hhigh, fun scan words => rfl⟩
  unfold MotorFrame.bytes
  rw [motorWord_bytes]
  rfl

end Layouts

end Sys2Proof.Machine

/-! GO, the jumps and the standby, the GO line and the playback's timers (R46–R58, R63), and the show reset (R62). -/

namespace Sys2Proof.Machine

open Sys2Proof.Safety

/-! ### The checks of a GO (R48) -/

section Checks

variable {s : State} {expected : Nat} {c : StandbyCue} {r : CueRecord}

theorem findCue_number {table : List CueRecord} {n : Nat} (h : findCue table n = some r) : r.number = n := by
  have hfound := List.find?_some (p := fun r : CueRecord => decide (r.number = n)) h
  exact of_decide_eq_true hfound

theorem standbyRecord_none (h : s.play.standby = none) : standbyRecord s = none := by
  unfold standbyRecord
  rw [h]
  rfl

theorem standbyRecord_some (hc : s.play.standby = some c) (hr : findCue s.cues.table c.number = some r) :
    standbyRecord s = some r := by
  unfold standbyRecord
  rw [hc]
  exact hr

theorem standbyNumber_some (hc : s.play.standby = some c) : standbyNumber s = c.number := by
  unfold standbyNumber
  rw [hc]

theorem checkGo_of_resolving (h : s.play.state.isResolving = true) : checkGo expected s = .error .busy := by
  unfold checkGo
  cases hs : s.play.state with
  | resolving => rfl
  | _ => rw [hs] at h; cases h

theorem checkGo_end (h : s.play.state = .standby ∨ s.play.state = .running) (hs : s.play.standby = none) :
    checkGo expected s = .error .endOfCues := by
  unfold checkGo
  rcases h with h | h <;> simp only [h, standbyRecord_none hs]

section Standby

variable (h : s.play.state = .standby ∨ s.play.state = .running) (hc : s.play.standby = some c)
  (hr : findCue s.cues.table c.number = some r)
include h hc hr

/-- In STANDBY and RUNNING the checks that remain (R48). -/
theorem checkGo_standby : checkGo expected s =
    if expected ≠ 0 ∧ expected ≠ c.number then .error .wrongCue
    else if s.play.lockoutRunning then .error .lockout
    else .ok r := by
  unfold checkGo
  rcases h with h | h <;> simp only [h, standbyRecord_some hc hr, findCue_number hr]

theorem checkGo_wrongCue (h0 : expected ≠ 0) (hne : expected ≠ c.number) :
    checkGo expected s = .error .wrongCue := by
  rw [checkGo_standby h hc hr, if_pos ⟨h0, hne⟩]

theorem checkGo_lockout (he : expected = 0 ∨ expected = c.number) (hl : s.play.lockoutRunning = true) :
    checkGo expected s = .error .lockout := by
  rw [checkGo_standby h hc hr, if_neg fun ⟨h0, hne⟩ => he.elim h0 hne, if_pos hl]

theorem checkGo_passes (he : expected = 0 ∨ expected = c.number) (hl : s.play.lockoutRunning = false) :
    checkGo expected s = .ok r := by
  rw [checkGo_standby h hc hr, if_neg fun ⟨h0, hne⟩ => he.elim h0 hne,
    if_neg (Bool.eq_false_iff.mp hl)]

end Standby

theorem takeGo_firedState (h : s.play.state = .standby ∨ s.play.state = .running) : takeGo r s =
    { firedState r s with play := { (firedState r s).play with lockout := some 0 } } := by
  unfold takeGo
  rw [fire_eq h]

end Checks

/-! ### The GO order (R48, R49) -/

section Go

variable {p : List Byte} {s : State} {r : CueRecord}

theorem goBody_refuse {reason : Reason} (h : checkGo (wordAt p 0) s = .error reason) :
    goBody p s = .refuse reason (goRefusalData reason s) := by
  unfold goBody
  rw [h]

theorem goBody_fires (h : checkGo (wordAt p 0) s = .ok r) :
    goBody p s = .done (nat16 r.number ++ nat16 (standbyNumber (takeGo r s))) (takeGo r s) := by
  unfold goBody
  rw [h]

/-- Settles O13, from the checks that let the GO through. -/
theorem goFiresTheStandby : Obligations.GoFiresTheStandby := by
  intro f s c r hl hm hstate hc hr hexpected hlockout
  have hbody := goBody_fires (checkGo_passes hstate hc hr hexpected hlockout)
  rw [takeGo_firedState hstate] at hbody
  exact takenAs_showOrder rfl rfl hl (by decide) hm hbody

/-- A GO with no standby: END, and END_REACHED is latched (R48). -/
theorem go_end {f : OrderFrame} (hl : f.payload.length = 2) (hm : s.sup.localMode = false)
    (h : s.play.state = .standby ∨ s.play.state = .running) (hs : s.play.standby = none) :
    (Exact f s → exec (.go f) s = .next (pendAnswer 0x10 f.tag 3 [] (latch .endReached s)))
      ∧ (Masked f s → exec (.go f) s = .next (latch .groupRefused (latch .endReached s))) := by
  have h48 : f.payload.length ≤ 48 := by omega
  have hspec : (orderSpec 0x10#8).getD unknownSpec = goSpec := rfl
  have hj : judgeOrder goSpec f.payload s = .refuse .endOfCues [] :=
    (judgeOrder_showOrder hl hm).trans (goBody_refuse (checkGo_end h hs))
  refine ⟨fun hexact => ?_, fun hmasked => ?_⟩
  · rw [exec_exact rfl h48 hexact, hspec, takeExact_refuse hj]
    exact congrArg _ (noteChanges_same rfl)
  · have hmask : takeMasked goSpec f s = latch .groupRefused (latch .endReached s) := by
      unfold takeMasked
      rw [hj]
      rfl
    rw [exec_masked rfl h48 hmasked, hspec, hmask]
    exact congrArg _ (noteChanges_same rfl)

/-- Settles O14, check by check. -/
theorem goRefused : Obligations.GoRefused := by
  intro f s hl hm
  have hrefused {reason : Reason} {data : List Byte} (hne : reason ≠ .endOfCues)
      (hdata : goRefusalData reason s = data) (h : checkGo (wordAt f.payload 0) s = .error reason) :
      RefusedAs (.go f) 0x10 f s reason data :=
    refusedAs_showOrder rfl rfl hl (by decide) hm hne (hdata ▸ goBody_refuse h)
  refine ⟨fun h => hrefused (by decide) rfl (checkGo_of_held h),
    fun h => hrefused (by decide) rfl (checkGo_of_resolving h),
    fun h => ⟨go_end hl hm h, fun c r hc hr => ⟨fun h0 hne => ?wrongCue, fun he hlock => ?lockout⟩⟩⟩
  case wrongCue =>
    exact hrefused (by decide) (congrArg nat16 (standbyNumber_some hc)) (checkGo_wrongCue h hc hr h0 hne)
  case lockout => exact hrefused (by decide) rfl (checkGo_lockout h hc hr he hlock)

end Go

/-! ### GOTO, BACK, STANDBY SET and PLAYBACK CONFIG (R46, R57, R58, R63) -/

section Jumps

variable {p : List Byte} {s : State}

theorem gotoBody_busy (h : s.play.state.isResolving = true) : gotoBody p s = .refuse .busy [] :=
  if_pos h

theorem gotoBody_noCue (h : s.play.state.isResolving = false) (hs : isStored s.cues.table (wordAt p 0) = false) :
    gotoBody p s = .refuse .noCue [] := by
  unfold gotoBody
  rw [if_neg (Bool.eq_false_iff.mp h), if_pos hs]

theorem gotoTime_eq (n default : Nat) :
    (timeField n).getD default = if n = 65535 then default else min n 9999 := by
  rw [timeField_eq]
  split <;> rfl

theorem gotoBody_starts (h : s.play.state.isResolving = false) (hs : isStored s.cues.table (wordAt p 0) = true) :
    gotoBody p s = .done [] { s with play := { s.play with follow := none, state := .resolving ⟨wordAt p 0,
      if wordAt p 2 = 65535 then s.play.config.gotoTime else min (wordAt p 2) 9999, s.clock, false⟩ } } := by
  unfold gotoBody
  rw [if_neg (Bool.eq_false_iff.mp h), if_neg (ne_false_of_eq_true hs), gotoTime_eq]
  rfl

theorem backBody_busy (h : s.play.state.isResolving = true) : backBody p s = .refuse .busy [] :=
  if_pos h

theorem backBody_noCue (h : s.play.state.isResolving = false) (hn : lastBefore s.cues.table s.play.current = none) :
    backBody p s = .refuse .noCue [] := by
  unfold backBody
  rw [if_neg (Bool.eq_false_iff.mp h), hn]

theorem backBody_starts {goal : Nat} (h : s.play.state.isResolving = false)
    (hgoal : lastBefore s.cues.table s.play.current = some goal) :
    backBody p s = .done (nat16 goal) { s with play := { s.play with
      follow := none, state := .resolving ⟨goal, s.play.config.backTime, s.clock, false⟩ } } := by
  unfold backBody
  rw [if_neg (Bool.eq_false_iff.mp h), hgoal]
  rfl

theorem standbySetBody_busy (h : s.play.state.isResolving = true) : standbySetBody p s = .refuse .busy [] :=
  if_pos h

theorem standbySetBody_noCue (h : s.play.state.isResolving = false)
    (hs : isStored s.cues.table (wordAt p 0) = false) : standbySetBody p s = .refuse .noCue [] := by
  unfold standbySetBody
  rw [if_neg (Bool.eq_false_iff.mp h), if_pos hs]

theorem standbySetBody_sets (h : s.play.state.isResolving = false)
    (hs : isStored s.cues.table (wordAt p 0) = true) : standbySetBody p s = .done (nat16 (wordAt p 0))
      { s with play := { s.play with standby := some { number := wordAt p 0, explicit := true } } } := by
  unfold standbySetBody
  rw [if_neg (Bool.eq_false_iff.mp h), if_neg (ne_false_of_eq_true hs)]

theorem lockoutRunning_iff (u : Playback) :
    u.lockoutRunning = true ↔ ∃ elapsed, u.lockout = some elapsed ∧ elapsed < u.config.lockoutTime := by
  unfold Playback.lockoutRunning
  cases u.lockout <;> simp

theorem lockoutKept_eq (u : Playback) : u.lockoutKept =
    match u.lockout with
    | some elapsed => if elapsed < u.config.lockoutTime then some elapsed else none
    | none => none := by
  unfold Playback.lockoutKept Playback.lockoutRunning
  cases h : u.lockout with
  | none => rfl
  | some elapsed => simp

theorem flagOf_of_le {n : Nat} (h : n ≤ 1) : flagOf n = some (n == 1) := by
  match n, h with
  | 0, _ => rfl
  | 1, _ => rfl

theorem flagOf_of_lt {n : Nat} (h : 1 < n) : flagOf n = none := by
  match n, h with
  | _ + 2, _ => rfl

theorem playbackConfigBody_range (h : 1 < byteAt p 6) : playbackConfigBody p s = .refuse .range [] := by
  unfold playbackConfigBody
  rw [flagOf_of_lt h]

theorem playbackConfigBody_stores (h : byteAt p 6 ≤ 1) : playbackConfigBody p s =
    .done [] { s with play := { s.play with
      lockout := match s.play.lockout with
        | some elapsed => if elapsed < s.play.config.lockoutTime then some elapsed else none
        | none => none
      config := { lockoutTime := min 2000 (wordAt p 0), gotoTime := min (wordAt p 2) 9999
                  backTime := min (wordAt p 4) 9999, localGo := byteAt p 6 == 1 } } } := by
  unfold playbackConfigBody
  rw [flagOf_of_le h, lockoutKept_eq]
  rfl

/-- Settles O17, order by order. -/
theorem jumpsAndStandbyTaken : Obligations.JumpsAndStandbyTaken := by
  refine ⟨fun f s hm => ⟨fun hl => ⟨fun h => ?gotoBusy, fun h hs => ?gotoNoCue, fun h hs => ?goto⟩,
      fun hp => ⟨fun h => ?backBusy, fun h hs => ?backNoCue, fun goal h hgoal => ?back⟩⟩,
    fun f s hm => ⟨fun hl => ⟨fun h => ?setBusy, fun h hs => ?setNoCue, fun h hs => ?set⟩,
      fun hl => ⟨fun h => ?range, fun h => ?config⟩⟩⟩
  case gotoBusy => exact refusedAs_showOrder rfl rfl hl (by decide) hm (by decide) (gotoBody_busy h)
  case gotoNoCue => exact refusedAs_showOrder rfl rfl hl (by decide) hm (by decide) (gotoBody_noCue h hs)
  case goto => exact takenAs_showOrder rfl rfl hl (by decide) hm (gotoBody_starts h hs)
  case backBusy =>
    exact refusedAs_showOrder rfl rfl (List.length_eq_zero_iff.mpr hp) (by decide) hm (by decide) (backBody_busy h)
  case backNoCue =>
    exact refusedAs_showOrder rfl rfl (List.length_eq_zero_iff.mpr hp) (by decide) hm (by decide)
      (backBody_noCue h (lastBefore_eq_none.mpr hs))
  case back =>
    exact takenAs_showOrder rfl rfl (List.length_eq_zero_iff.mpr hp) (by decide) hm (backBody_starts h hgoal)
  case setBusy => exact refusedAs_showOrder rfl rfl hl (by decide) hm (by decide) (standbySetBody_busy h)
  case setNoCue => exact refusedAs_showOrder rfl rfl hl (by decide) hm (by decide) (standbySetBody_noCue h hs)
  case set => exact takenAs_showOrder rfl rfl hl (by decide) hm (standbySetBody_sets h hs)
  case range => exact refusedAs_showOrder rfl rfl hl (by decide) hm (by decide) (playbackConfigBody_range h)
  case config => exact takenAs_showOrder rfl rfl hl (by decide) hm (playbackConfigBody_stores h)

end Jumps

/-! ### The GO line and the timers (R50–R53) -/

section Line

variable {s : State} {c : StandbyCue} {r : CueRecord}

/-- The state after a fall of the GO line. -/
def goLineFallen (s : State) : State :=
  { s with play := { s.play with goLine := .low } }

theorem actGoLinePress_low (h : s.play.goLine = .low) : actGoLinePress s = s := by
  unfold actGoLinePress
  rw [h]

theorem actGoLinePress_off (h : s.play.goLine = .high) (hgo : s.play.config.localGo = false)
    (hm : s.sup.localMode = false) : actGoLinePress s = goLineFallen s := by
  unfold actGoLinePress
  rw [h]
  dsimp only
  rw [hgo, hm]
  rfl

theorem actGoLinePress_on (h : s.play.goLine = .high) (hon : s.play.config.localGo = true ∨ s.sup.localMode = true) :
    actGoLinePress s =
      match checkGo 0 (goLineFallen s) with
      | .error reason => latch .goIgnored (latchRefusal reason (goLineFallen s))
      | .ok r => takeGo r (goLineFallen s) := by
  unfold actGoLinePress
  rw [h]
  dsimp only
  rw [if_pos (by simpa using hon)]
  rfl

theorem goLinePress_ignored {reason : Reason} (hr : s.inReset = false) (h : s.play.goLine = .high)
    (hon : s.play.config.localGo = true ∨ s.sup.localMode = true)
    (hcheck : checkGo 0 (goLineFallen s) = .error reason) :
    exec .goLinePress s = .next (latch .goIgnored (latchRefusal reason (goLineFallen s))) := by
  have hact : actGoLinePress s = latch .goIgnored (latchRefusal reason (goLineFallen s)) := by
    rw [actGoLinePress_on h hon, hcheck]
  refine event_quiet hr hact ?_
  unfold latchRefusal
  split <;> rfl

theorem present_fired_lockout {u : State} (h : u.play.state = .standby ∨ u.play.state = .running) :
    present u = present { firedState r u with play := { (firedState r u).play with lockout := some 0 } } :=
  present_firedState h

theorem goLinePress_fires (hr : s.inReset = false) (h : s.play.goLine = .high)
    (hon : s.play.config.localGo = true ∨ s.sup.localMode = true)
    (hstate : s.play.state = .standby ∨ s.play.state = .running)
    (hcheck : checkGo 0 (goLineFallen s) = .ok r) :
    exec .goLinePress s = .next { firedState r (goLineFallen s) with
      play := { (firedState r (goLineFallen s)).play with lockout := some 0 } } := by
  have hact : actGoLinePress s = takeGo r (goLineFallen s) := by
    rw [actGoLinePress_on h hon, hcheck]
  rw [takeGo_firedState (s := goLineFallen s) hstate] at hact
  exact event_quiet hr hact (present_fired_lockout (u := goLineFallen s) hstate)

theorem fireMove_play (owner : Nat) (m : FiredMove) (s : State) (p : Playback) :
    fireMove owner { s with play := p } m = { fireMove owner s m with play := p } := by
  unfold fireMove
  dsimp only
  split <;> rfl

/-- The moves of a firing do not look at the Playback Controller. -/
theorem fireMoves_play (r : CueRecord) (s : State) (p : Playback) :
    fireMoves r { s with play := p } = { fireMoves r s with play := p } := by
  unfold fireMoves
  generalize r.moves = moves
  induction moves generalizing s with
  | nil => rfl
  | cons m rest ih =>
    rw [List.foldl_cons, fireMove_play]
    exact ih _

/-- A firing sets the follow timer, whatever it held. -/
theorem firedState_follow (r : CueRecord) (s : State) :
    firedState r { s with play := { s.play with follow := none } } = firedState r s := by
  unfold firedState
  rw [fireMoves_play]

theorem goLineRise (hr : s.inReset = false) :
    exec .goLineRise s = .next { s with play := { s.play with goLine := .high } } :=
  event_quiet hr rfl rfl

theorem goLinePress_low (hr : s.inReset = false) (h : s.play.goLine = .low) : exec .goLinePress s = .next s :=
  event_quiet hr (actGoLinePress_low h) rfl

theorem goLinePress_off (hr : s.inReset = false) (h : s.play.goLine = .high) (hgo : s.play.config.localGo = false)
    (hm : s.sup.localMode = false) : exec .goLinePress s = .next (goLineFallen s) :=
  event_quiet hr (actGoLinePress_off h hgo hm) rfl

section Follow

variable (hf : s.play.follow = some 0) (hstate : s.play.state = .standby ∨ s.play.state = .running)
include hf hstate

theorem actFollowExpiry_due : actFollowExpiry s =
    match standbyRecord s with
    | none => latch .endReached { s with play := { s.play with follow := none } }
    | some r => fire r { s with play := { s.play with follow := none } } := by
  unfold actFollowExpiry
  rw [if_pos (followDue_iff.mpr ⟨hf, hstate⟩)]
  rfl

theorem followExpiry_end (hr : s.inReset = false) (hs : s.play.standby = none) : exec .followExpiry s =
    .next (latch .endReached { s with play := { s.play with follow := none } }) := by
  refine event_quiet hr ?_ rfl
  rw [actFollowExpiry_due hf hstate, standbyRecord_none hs]

theorem followExpiry_fires (hr : s.inReset = false) (hc : s.play.standby = some c)
    (hrecord : findCue s.cues.table c.number = some r) :
    exec .followExpiry s = .next (firedState r s) := by
  refine event_quiet hr ?_ (present_firedState hstate)
  rw [actFollowExpiry_due hf hstate, standbyRecord_some hc hrecord, ← firedState_follow]
  exact fire_eq (s := { s with play := { s.play with follow := none } }) hstate

end Follow

theorem lockoutExpiry_ends {elapsed : Nat} (hr : s.inReset = false) (h : s.play.lockout = some elapsed)
    (hdue : s.play.config.lockoutTime ≤ elapsed) :
    exec .lockoutExpiry s = .next { s with play := { s.play with lockout := none } } :=
  event_quiet hr (if_pos (lockoutDue_iff.mpr ⟨elapsed, h, hdue⟩)) rfl

/-- Settles O18: the line's press by the checks of the GO it asks for, the timers by their conditions. -/
theorem goLineAndTimers : Obligations.GoLineAndTimers := by
  refine ⟨fun s hr => ⟨goLineRise hr, goLinePress_low hr, fun hline => ⟨goLinePress_off hr hline,
      fun hon => ⟨fun h => ?busy, fun h => ⟨fun hs => ?noStandby, fun c r hc hrecord => ⟨fun hlock => ?lockout,
        fun hlock => ?fires⟩⟩⟩⟩⟩, lockoutRunning_iff,
    fun s hr => ⟨fun hf hstate => ⟨followExpiry_end hf hstate hr, fun c r hc hrecord =>
      ⟨followExpiry_fires hf hstate hr hc hrecord, rfl⟩⟩, fun elapsed => lockoutExpiry_ends hr⟩⟩
  case busy =>
    rcases h with h | h
    · exact goLinePress_ignored hr hline hon (reason := .held) (checkGo_of_held h)
    · exact goLinePress_ignored hr hline hon (reason := .busy) (checkGo_of_resolving h)
  case noStandby => exact goLinePress_ignored hr hline hon (reason := .endOfCues) (checkGo_end h hs)
  case lockout =>
    exact goLinePress_ignored hr hline hon (reason := .lockout)
      (checkGo_lockout (s := goLineFallen s) h hc hrecord (.inl rfl) hlock)
  case fires =>
    exact goLinePress_fires hr hline hon h (checkGo_passes (s := goLineFallen s) h hc hrecord (.inl rfl) hlock)

end Line

/-! ### SHOW RESET (R62) -/

section ShowReset

variable {s : State}

/-- The part after a show reset, block by block. -/
theorem showResetBody_eq (p : List Byte) (s : State) : showResetBody p s = .done [] { s with
    cues := { s.cues with edit := none }
    play := { s.play.showReset with standby := computedStandby s.cues.table 0 }
    fade := s.fade.showReset, own := s.own.showReset, mute := s.mute.showReset
    status := s.status.showReset (decide (present s ≠ present (clearShow s))) } := rfl

theorem statusShowReset_latch (u : StatusUnit) (changed : Bool) :
    (u.showReset changed).latch = if changed then Event.stateChanged.bit else 0 := by
  unfold StatusUnit.showReset
  split <;> rfl

theorem statusShowReset_rest (u : StatusUnit) (changed : Bool) : (u.showReset changed).mask = u.mask
    ∧ (u.showReset changed).mode = u.mode ∧ (u.showReset changed).policy = u.policy := by
  unfold StatusUnit.showReset StatusUnit.countPulse
  split
  · dsimp only
    split
    · exact ⟨rfl, rfl, rfl⟩
    · split <;> exact ⟨rfl, rfl, rfl⟩
  · exact ⟨rfl, rfl, rfl⟩

theorem statusShowReset_pulses (u : StatusUnit) (changed : Bool) : (u.showReset changed).pulses =
    if changed = true ∧ u.latched .stateChanged = false then (u.countPulse .stateChanged).pulses else u.pulses := by
  unfold StatusUnit.showReset
  cases changed <;> cases u.latched .stateChanged <;> rfl

theorem unparked_eq (u : Ownership) (x : Target) : u.unparked x =
    match u.owners[x] with
    | .parked position start duration elapsed =>
      if u.glideTime = 0 then .auto else .glide (rampValue position start duration elapsed) u.glideTime 0
    | o => o := by
  unfold Ownership.unparked Ownership.released
  cases u.owners[x] <;> rfl

/-- Settles O19, block by block. -/
theorem showResetTaken : Obligations.ShowResetTaken := by
  intro f s hp hm
  have hl : f.payload.length = 0 := List.length_eq_zero_iff.mpr hp
  obtain ⟨hmask, hmode, hpolicy⟩ :=
    statusShowReset_rest s.status (decide (present s ≠ present (clearShow s)))
  refine ⟨_, takenAs_showOrder rfl rfl hl (by decide) hm (showResetBody_eq _ s), rfl, rfl, rfl, fun x => ?owners, rfl,
    fun c => ?flags, fun m => ?groups, fun c => ?ramps, rfl, ?latch, hmask, hmode, hpolicy, ?pulses,
    rfl, rfl, rfl, rfl, rfl⟩
  case owners => exact (showReset_owners s.own x).trans (unparked_eq s.own x)
  case flags => simp [MuteUnit.showReset, reevaluate]
  case groups => simp [MuteUnit.showReset, reevaluate]
  case ramps => exact reevaluate_ramps_get _ _ c
  case latch =>
    refine (statusShowReset_latch _ _).trans ?_
    change _ = if present s = present (clearShow s) then 0 else Event.stateChanged.bit
    by_cases h : present s = present (clearShow s) <;> simp [h]
  case pulses =>
    refine (statusShowReset_pulses _ _).trans ?_
    simp only [decide_eq_true_eq]
    rfl

end ShowReset

end Sys2Proof.Machine

/-! Commits, deletions and the reading orders of the cue store (R30–R38). -/

namespace Sys2Proof.Machine

open Sys2Proof.Safety

/-! ### From a reading order's body to its answer -/

section ReadOrder

variable {i : Instr} {kind : Byte} {f : OrderFrame} {s t : State} {n : Nat} {data : List Byte} {reason : Reason}
  {body : List Byte → State → OrderResult}

/-- A reading order of the right length meets its own checks alone, in LOCAL mode too (R160, R174). -/
theorem judgeOrder_readOrder {p : List Byte} (hl : p.length = n) : judgeOrder (readOrder n body) p s = body p s :=
  judgeOrder_open (beq_iff_eq.mpr hl) rfl

theorem readAs_readOrder (ho : i.order? = some (kind, f)) (hs : orderSpec kind = some (readOrder n body))
    (hl : f.payload.length = n) (h48 : n ≤ 48) (hb : body f.payload s = .done data t) :
    ReadAs i kind f s data t :=
  readAs ho hs (Nat.le_trans (Nat.le_of_eq hl) h48) rfl ((judgeOrder_readOrder hl).trans hb)

theorem readRefusedAs_readOrder (ho : i.order? = some (kind, f)) (hs : orderSpec kind = some (readOrder n body))
    (hl : f.payload.length = n) (h48 : n ≤ 48) (hne : reason ≠ .endOfCues)
    (hb : body f.payload s = .refuse reason []) : ReadRefusedAs i kind f s reason :=
  readRefusedAs ho hs (Nat.le_trans (Nat.le_of_eq hl) h48) rfl hne ((judgeOrder_readOrder hl).trans hb)

end ReadOrder

/-! ### The capacity of the store (R30) -/

section Capacity

variable {u : CueStore} {n k : Nat} {r : CueRecord} {reason : Reason}

theorem movesOfCue_some (h : findCue u.table n = some r) : movesOfCue u.table n = r.moves.length := by
  unfold movesOfCue
  rw [h]

theorem movesOfCue_none (h : findCue u.table n = none) : movesOfCue u.table n = 0 := by
  unfold movesOfCue
  rw [h]

theorem capacityRefusal_of_stored (h : findCue u.table n = some r) :
    capacityRefusal u n k = if u.poolFree + r.moves.length < k then some .poolFull else none := by
  unfold capacityRefusal isStored
  rw [h, movesOfCue_some h]
  rfl

theorem capacityRefusal_of_new (h : findCue u.table n = none) : capacityRefusal u n k =
    if 500 ≤ u.table.length then some .tableFull else if u.poolFree < k then some .poolFull else none := by
  unfold capacityRefusal isStored
  rw [h]
  rfl

theorem capacityRefusal_ne_end (h : capacityRefusal u n k = some reason) : reason ≠ .endOfCues := by
  rintro rfl
  unfold capacityRefusal at h
  split at h
  · split at h <;> cases h
  · split at h
    · cases h
    · split at h <;> cases h

end Capacity

/-! ### RECORD END and CUE DELETE -/

section Commits

variable {p : List Byte} {s : State} {d : CueRecord}

theorem recordEndBody_noEdit (h : s.cues.edit = none) : recordEndBody p s = .refuse .noEdit [] := by
  unfold recordEndBody
  rw [h]

theorem recordEndBody_busy (h : s.cues.edit = some d) (hbusy : s.play.state.isResolving = true) :
    recordEndBody p s = .refuse .busy [] := by
  unfold recordEndBody
  rw [h]
  exact if_pos hbusy

theorem recordEndBody_full {reason : Reason} (h : s.cues.edit = some d) (hfree : s.play.state.isResolving = false)
    (hroom : capacityRefusal s.cues d.number d.moves.length = some reason) :
    recordEndBody p s = .refuse reason [] := by
  unfold recordEndBody
  rw [h]
  dsimp only
  rw [if_neg (Bool.eq_false_iff.mp hfree), hroom]

theorem recordEndBody_commits (h : s.cues.edit = some d) (hfree : s.play.state.isResolving = false)
    (hroom : capacityRefusal s.cues d.number d.moves.length = none) :
    recordEndBody p s = .done (countBytes (s.cues.commit d)) { s with
      cues := { s.cues.commit d with edit := none }
      play := { s.play with standby := standbyOver (s.cues.commit d).table s.play } } := by
  unfold recordEndBody
  rw [h]
  dsimp only
  rw [if_neg (Bool.eq_false_iff.mp hfree), hroom, standbyAfterEdit_eq]

theorem cueDeleteBody_busy (h : s.play.state.isResolving = true) : cueDeleteBody p s = .refuse .busy [] :=
  if_pos h

theorem cueDeleteBody_noCue (h : s.play.state.isResolving = false) (hn : findCue s.cues.table (wordAt p 0) = none) :
    cueDeleteBody p s = .refuse .noCue [] := by
  unfold cueDeleteBody isStored
  rw [if_neg (Bool.eq_false_iff.mp h), hn]
  rfl

theorem cueDeleteBody_deletes {r : CueRecord} (h : s.play.state.isResolving = false)
    (hr : findCue s.cues.table (wordAt p 0) = some r) :
    cueDeleteBody p s = .done (countBytes (s.cues.delete (wordAt p 0))) { s with
      cues := s.cues.delete (wordAt p 0)
      play := { s.play with standby := standbyOver (s.cues.delete (wordAt p 0)).table s.play } } := by
  have hstored : ¬isStored s.cues.table (wordAt p 0) = false := by
    simp [isStored, hr]
  unfold cueDeleteBody
  rw [if_neg (Bool.eq_false_iff.mp h), if_neg hstored]
  dsimp only
  rw [standbyAfterEdit_eq]

theorem delete_of_found {u : CueStore} {n : Nat} {r : CueRecord} (h : findCue u.table n = some r) :
    u.delete n = { u with
      table := u.table.filter fun c => decide (c.number ≠ n), poolFree := u.poolFree + r.moves.length } := by
  unfold CueStore.delete
  rw [movesOfCue_some h]
  rfl

/-- A commit that its checks let through, in the store's own counts (R31). -/
theorem recordEnd_commits {f : OrderFrame} {old : Nat} (hl : f.payload.length = 0) (hm : s.sup.localMode = false)
    (h : s.cues.edit = some d) (hfree : s.play.state.isResolving = false)
    (hroom : capacityRefusal s.cues d.number d.moves.length = none) (hold : movesOfCue s.cues.table d.number = old) :
    TakenAs (.recordEnd f) 0x23 f s
      (nat16 (insertCue d s.cues.table).length ++ nat16 (s.cues.poolFree + old - d.moves.length))
      { s with
        cues := { table := insertCue d s.cues.table, poolFree := s.cues.poolFree + old - d.moves.length, edit := none }
        play := { s.play with standby := standbyOver (insertCue d s.cues.table) s.play } } := by
  subst hold
  exact takenAs_showOrder rfl rfl hl (by decide) hm (recordEndBody_commits h hfree hroom)

/-- Settles O23: a commit by the capacity its checks find, a deletion by the record it finds. -/
theorem recordsCommittedAndDeleted : Obligations.RecordsCommittedAndDeleted := by
  refine ⟨fun f s hp hm => ⟨fun h => ?noEdit, fun d h => ⟨fun hbusy => ?busy, fun hfree =>
      ⟨fun r hr => ⟨fun hfull => ?grown, fun hroom => ?replaced⟩,
        fun hn => ⟨fun hfull => ?table, fun hplace hfull => ?pool, fun hplace hroom => ?inserted⟩⟩⟩⟩,
    fun f s hl hm => ⟨fun h => ?deleteBusy, fun h hn => ?deleteNoCue, fun r h hr => ?deleted⟩⟩
  case noEdit =>
    exact refusedAs_showOrder rfl rfl (List.length_eq_zero_iff.mpr hp) (by decide) hm (by decide)
      (recordEndBody_noEdit h)
  case busy =>
    exact refusedAs_showOrder rfl rfl (List.length_eq_zero_iff.mpr hp) (by decide) hm (by decide)
      (recordEndBody_busy h hbusy)
  case grown =>
    have hrefused : capacityRefusal s.cues d.number d.moves.length = some .poolFull := by
      rw [capacityRefusal_of_stored hr, if_pos hfull]
    exact refusedAs_showOrder rfl rfl (List.length_eq_zero_iff.mpr hp) (by decide) hm (by decide)
      (recordEndBody_full h hfree hrefused)
  case replaced =>
    have hpasses : capacityRefusal s.cues d.number d.moves.length = none := by
      rw [capacityRefusal_of_stored hr, if_neg (Nat.not_lt.mpr hroom)]
    exact recordEnd_commits (List.length_eq_zero_iff.mpr hp) hm h hfree hpasses (movesOfCue_some hr)
  case table =>
    have hrefused : capacityRefusal s.cues d.number d.moves.length = some .tableFull := by
      rw [capacityRefusal_of_new hn, if_pos hfull]
    exact refusedAs_showOrder rfl rfl (List.length_eq_zero_iff.mpr hp) (by decide) hm (by decide)
      (recordEndBody_full h hfree hrefused)
  case pool =>
    have hrefused : capacityRefusal s.cues d.number d.moves.length = some .poolFull := by
      rw [capacityRefusal_of_new hn, if_neg (Nat.not_le.mpr hplace), if_pos hfull]
    exact refusedAs_showOrder rfl rfl (List.length_eq_zero_iff.mpr hp) (by decide) hm (by decide)
      (recordEndBody_full h hfree hrefused)
  case inserted =>
    have hpasses : capacityRefusal s.cues d.number d.moves.length = none := by
      rw [capacityRefusal_of_new hn, if_neg (Nat.not_le.mpr hplace), if_neg (Nat.not_lt.mpr hroom)]
    exact recordEnd_commits (List.length_eq_zero_iff.mpr hp) hm h hfree hpasses (movesOfCue_none hn)
  case deleteBusy => exact refusedAs_showOrder rfl rfl hl (by decide) hm (by decide) (cueDeleteBody_busy h)
  case deleteNoCue => exact refusedAs_showOrder rfl rfl hl (by decide) hm (by decide) (cueDeleteBody_noCue h hn)
  case deleted =>
    have hbody := cueDeleteBody_deletes h hr
    rw [delete_of_found hr] at hbody
    exact takenAs_showOrder rfl rfl hl (by decide) hm hbody

end Commits

/-! ### RECORD LIVE (R33, R34) -/

section Live

variable {p : List Byte} {s : State} {kind : CueKind}

theorem recordLiveBody_editOpen (h : s.cues.edit ≠ none) : recordLiveBody p s = .refuse .editOpen [] :=
  if_pos (Option.isSome_iff_ne_none.mpr h)

theorem recordLiveBody_busy (h : s.cues.edit = none) (hbusy : s.play.state.isResolving = true) :
    recordLiveBody p s = .refuse .busy [] := by
  unfold recordLiveBody
  rw [h]
  exact if_pos hbusy

theorem recordLiveBody_range (h : s.cues.edit = none) (hfree : s.play.state.isResolving = false)
    (hr : wordAt p 0 = 0 ∨ 60000 < wordAt p 0 ∨ 1 < byteAt p 2) : recordLiveBody p s = .refuse .range [] := by
  unfold recordLiveBody
  rw [if_neg (by rw [h]; decide), if_neg (Bool.eq_false_iff.mp hfree)]
  cases hkind : kindOf (byteAt p 2) with
  | none => rfl
  | some kind =>
    refine if_pos ?_
    rcases hr with hzero | hbig | hbyte
    · exact .inl hzero
    · exact .inr hbig
    · rw [kindOf_eq_none hbyte] at hkind
      cases hkind

section InRange

variable (h : s.cues.edit = none) (hfree : s.play.state.isResolving = false) (hlow : 1 ≤ wordAt p 0)
  (hhigh : wordAt p 0 ≤ Config.maxCue) (hkind : kindOf (byteAt p 2) = some kind)
include h hfree hlow hhigh hkind

theorem recordLiveBody_full {reason : Reason}
    (hroom : capacityRefusal s.cues (wordAt p 0) (liveRecord (wordAt p 0) kind s).moves.length = some reason) :
    recordLiveBody p s = .refuse reason [] := by
  unfold recordLiveBody
  rw [if_neg (by rw [h]; decide), if_neg (Bool.eq_false_iff.mp hfree), hkind]
  dsimp only
  rw [if_neg (not_or.mpr ⟨by omega, Nat.not_lt.mpr hhigh⟩), hroom]

theorem recordLiveBody_commits
    (hroom : capacityRefusal s.cues (wordAt p 0) (liveRecord (wordAt p 0) kind s).moves.length = none) :
    recordLiveBody p s = .done (countBytes (s.cues.commit (liveRecord (wordAt p 0) kind s))) { s with
      cues := s.cues.commit (liveRecord (wordAt p 0) kind s)
      play := { s.play with
        standby := standbyOver (s.cues.commit (liveRecord (wordAt p 0) kind s)).table s.play } } := by
  unfold recordLiveBody
  rw [if_neg (by rw [h]; decide), if_neg (Bool.eq_false_iff.mp hfree), hkind]
  dsimp only
  rw [if_neg (not_or.mpr ⟨by omega, Nat.not_lt.mpr hhigh⟩), hroom]
  dsimp only
  rw [standbyAfterEdit_eq]

end InRange

/-- Settles O24, check by check. -/
theorem recordLiveCommits : Obligations.RecordLiveCommits := by
  intro f s hl hm
  refine ⟨fun h => ?editOpen, fun h hbusy => ?busy, fun h hfree hr => ?range,
    fun kind h hfree hlow hhigh hkind => ⟨fun reason hroom => ?full, fun hroom => ?commits⟩⟩
  case editOpen => exact refusedAs_showOrder rfl rfl hl (by decide) hm (by decide) (recordLiveBody_editOpen h)
  case busy => exact refusedAs_showOrder rfl rfl hl (by decide) hm (by decide) (recordLiveBody_busy h hbusy)
  case range => exact refusedAs_showOrder rfl rfl hl (by decide) hm (by decide) (recordLiveBody_range h hfree hr)
  case full =>
    exact refusedAs_showOrder rfl rfl hl (by decide) hm (capacityRefusal_ne_end hroom)
      (recordLiveBody_full h hfree hlow hhigh hkind hroom)
  case commits =>
    exact takenAs_showOrder rfl rfl hl (by decide) hm (recordLiveBody_commits h hfree hlow hhigh hkind hroom)

end Live

/-! ### The reading orders (R36–R38) -/

section Reading

variable {u : CueStore} {n : Nat} {r : CueRecord}

theorem recordToRead_ok (h : (if n = 0 then u.edit else findCue u.table n) = some r) : recordToRead u n = .ok r := by
  unfold recordToRead
  split
  next hn => rw [if_pos hn] at h; rw [h]
  next hn => rw [if_neg hn] at h; rw [h]

theorem recordToRead_noEdit (hn : n = 0) (h : u.edit = none) : recordToRead u n = .error .noEdit := by
  unfold recordToRead
  rw [if_pos hn, h]

theorem recordToRead_noCue (hn : n ≠ 0) (h : findCue u.table n = none) : recordToRead u n = .error .noCue := by
  unfold recordToRead
  rw [if_neg hn, h]

variable {p : List Byte} {s : State} {reason : Reason}

theorem cueReadBody_ok (h : recordToRead s.cues (wordAt p 0) = .ok r) :
    cueReadBody p s = .done (cueReadBytes r) s := by
  unfold cueReadBody
  rw [h]

theorem cueReadBody_error (h : recordToRead s.cues (wordAt p 0) = .error reason) :
    cueReadBody p s = .refuse reason [] := by
  unfold cueReadBody
  rw [h]

theorem moveReadBody_ok (h : recordToRead s.cues (wordAt p 0) = .ok r) :
    moveReadBody p s = .done (moveReadBytes r.moves (byteAt p 2)) s := by
  unfold moveReadBody
  rw [h]

theorem moveReadBody_error (h : recordToRead s.cues (wordAt p 0) = .error reason) :
    moveReadBody p s = .refuse reason [] := by
  unfold moveReadBody
  rw [h]

/-- Settles O25: both orders read the record that the number names. -/
theorem cueReadsReport : Obligations.CueReadsReport := by
  intro f s
  refine ⟨fun hl r hr => ?cue, fun hl r hr => ?moves, fun hl hn h => ?cueNoEdit, fun hl hn h => ?cueNoCue,
    fun hl hn h => ?movesNoEdit, fun hl hn h => ?movesNoCue, fun hp => ?info⟩
  case cue => exact readAs_readOrder rfl rfl hl (by decide) (cueReadBody_ok (recordToRead_ok hr))
  case moves => exact readAs_readOrder rfl rfl hl (by decide) (moveReadBody_ok (recordToRead_ok hr))
  case cueNoEdit =>
    exact readRefusedAs_readOrder rfl rfl hl (by decide) (by decide) (cueReadBody_error (recordToRead_noEdit hn h))
  case cueNoCue =>
    exact readRefusedAs_readOrder rfl rfl hl (by decide) (by decide) (cueReadBody_error (recordToRead_noCue hn h))
  case movesNoEdit =>
    exact readRefusedAs_readOrder rfl rfl hl (by decide) (by decide) (moveReadBody_error (recordToRead_noEdit hn h))
  case movesNoCue =>
    exact readRefusedAs_readOrder rfl rfl hl (by decide) (by decide) (moveReadBody_error (recordToRead_noCue hn h))
  case info => exact readAs_readOrder rfl rfl (List.length_eq_zero_iff.mpr hp) (by decide) rfl

end Reading

end Sys2Proof.Machine

/-! Firings, expiries of fades, and resolutions (R71–R84, R92–R98). -/

namespace Sys2Proof.Machine

open Sys2Proof.Safety

/-! ### One move of a firing (R72–R76) -/

section Moves

variable {u : FadeEngine} {t : Target}

theorem dropRunning_dropWaiting (u : FadeEngine) (t : Target) :
    (u.dropWaiting t).dropRunning t = u.dropAll t := by
  have hfilter : ((u.entries.filter fun e => !(decide (e.target = t) && !e.isRunning)).filter
      fun e => !(decide (e.target = t) && e.isRunning)) = u.entries.filter fun e => decide (e.target ≠ t) := by
    rw [List.filter_filter]
    refine List.filter_congr fun e _ => ?_
    by_cases he : e.target = t <;> cases e.isRunning <;> simp [he]
  unfold FadeEngine.dropRunning FadeEngine.dropWaiting FadeEngine.dropAll
  dsimp only
  rw [hfilter]

theorem value?_of_waiting {e : FadeEntry} (h : e.isRunning = false) : e.value? = none := by
  unfold FadeEntry.isRunning at h
  unfold FadeEntry.value?
  cases hp : e.phase with
  | waiting => rfl
  | running => rw [hp] at h; cases h

/-- Entries that give nothing may leave a search. -/
theorem findSome?_filter {α β : Type} {g : α → Option β} {p : α → Bool} (h : ∀ a, p a = false → g a = none)
    (l : List α) : (l.filter p).findSome? g = l.findSome? g := by
  induction l with
  | nil => rfl
  | cons a l ih =>
    cases hp : p a
    · rw [List.filter_cons_of_neg (Bool.eq_false_iff.mp hp), ih, List.findSome?_cons, h a hp]
    · rw [List.filter_cons_of_pos hp, List.findSome?_cons, List.findSome?_cons, ih]

/-- A WAITING entry has no curve value, so its leaving does not move the target. -/
theorem dropWaiting_automation (u : FadeEngine) (t : Target) : (u.dropWaiting t).automation t = u.automation t := by
  unfold FadeEngine.automation FadeEngine.dropWaiting
  dsimp only
  rw [findSome?_filter]
  intro e he
  have hwaiting : e.target = t ∧ e.isRunning = false := by simpa using he
  rw [if_pos hwaiting.1, value?_of_waiting hwaiting.2]

variable {owner : Nat} {m : FiredMove}

theorem applyMove_delayed (h : 0 < m.delay) : u.applyMove owner m = { u with
    entries := (u.entries.filter fun e => !(decide (e.target = m.target) && !e.isRunning))
      ++ [⟨m.target, owner, m.position, m.fade * 100, m.curve, .waiting (m.delay * 100)⟩] } :=
  if_pos h

theorem applyMove_timed (hd : m.delay = 0) (hf : 0 < m.fade) : u.applyMove owner m = { u with
    entries := (u.entries.filter fun e => decide (e.target ≠ m.target))
      ++ [⟨m.target, owner, m.position, m.fade * 100, m.curve, .running (u.automation m.target) 0⟩] } := by
  unfold FadeEngine.applyMove
  dsimp only
  rw [if_neg (by omega), if_pos hf, dropRunning_dropWaiting, dropWaiting_automation]
  rfl

theorem applyMove_snap (hd : m.delay = 0) (hf : m.fade = 0) : u.applyMove owner m = { u with
    entries := u.entries.filter fun e => decide (e.target ≠ m.target), rest := u.rest.set m.target m.position } := by
  unfold FadeEngine.applyMove
  dsimp only
  rw [if_neg (by omega), if_neg (by omega), dropRunning_dropWaiting]
  rfl

theorem fireMove_locked {s : State} (h : targetLocked s.out.windows m.target = true) :
    fireMove owner s m = latch .lockSkip s :=
  if_pos h

theorem fireMove_unlocked {s : State} (h : targetLocked s.out.windows m.target = false) :
    fireMove owner s m = { s with fade := s.fade.applyMove owner m } :=
  if_neg (Bool.eq_false_iff.mp h)

theorem setSubject_eq : MuteUnit.setSubject = fun v subject state =>
    match subject with
    | .group m => { v with groupStates := v.groupStates.set m state }
    | .channel c => { v with flags := v.flags.set c (decide (state = .mute)) } := by
  funext v subject state
  cases subject with
  | group => rfl
  | channel => cases state <;> rfl

/-- Settles O26: the record's moves in order, and each move's three forms. -/
theorem firedMoves : Obligations.FiredMoves := by
  refine ⟨⟨fun r s => rfl, fun u actions => ?actions⟩, fun s owner m =>
    ⟨fun h => fireMove_locked h, fun h => ⟨fun hd => ?delayed, fun hd hf => ?timed, fun hd hf => ?snap⟩⟩⟩
  case actions =>
    exact congrArg (fun set => reevaluate u (actions.foldl (fun v a => set v a.subject a.state) u)) setSubject_eq
  case delayed => rw [fireMove_unlocked h, applyMove_delayed hd]
  case timed => rw [fireMove_unlocked h, applyMove_timed hd hf]
  case snap => rw [fireMove_unlocked h, applyMove_snap hd hf]

end Moves

/-! ### Expiries (R78–R81) -/

section Expiries

variable {u : FadeEngine} {e : FadeEntry} {s : State}

/-- A target's entry of one phase is the only one (R69). -/
theorem keyed_unique {l : List FadeEntry} (h : l.Pairwise KeyDiffers) {a b : FadeEntry} (ha : a ∈ l) (hb : b ∈ l)
    (htarget : a.target = b.target) (hphase : a.isRunning = b.isRunning) : a = b := by
  induction l with
  | nil => cases ha
  | cons c l ih =>
    obtain ⟨hc, hl⟩ := List.pairwise_cons.mp h
    rcases List.mem_cons.mp ha with rfl | hal
    · rcases List.mem_cons.mp hb with rfl | hbl
      · rfl
      · exact absurd ⟨htarget, hphase⟩ (hc b hbl)
    · rcases List.mem_cons.mp hb with rfl | hbl
      · exact absurd ⟨htarget.symm, hphase.symm⟩ (hc a hal)
      · exact ih hl hal hbl

theorem isRunning_of_waiting {n : Nat} (h : e.phase = .waiting n) : e.isRunning = false := by
  unfold FadeEntry.isRunning
  rw [h]

theorem isRunning_of_running {start elapsed : Nat} (h : e.phase = .running start elapsed) : e.isRunning = true := by
  unfold FadeEntry.isRunning
  rw [h]

theorem delayDue_eq (hkeyed : u.entries.Pairwise KeyDiffers) (he : e ∈ u.entries) (hp : e.phase = .waiting 0) :
    u.delayDue e.target = some e := by
  cases hdue : u.delayDue e.target with
  | none =>
    have hnone := List.find?_eq_none.mp hdue e he
    simp [hp] at hnone
  | some x =>
    obtain ⟨hx, htarget, hphase⟩ := delayDue_mem hdue
    rw [keyed_unique hkeyed hx he htarget ((isRunning_of_waiting hphase).trans (isRunning_of_waiting hp).symm)]

theorem arrived_of_running {start elapsed : Nat} (hp : e.phase = .running start elapsed) (h : e.duration ≤ elapsed) :
    e.arrived = true := by
  unfold FadeEntry.arrived
  rw [hp]
  exact decide_eq_true h

theorem completionDue_eq (hkeyed : u.entries.Pairwise KeyDiffers) (he : e ∈ u.entries) (hr : e.isRunning = true)
    (ha : e.arrived = true) : u.completionDue e.target = some e := by
  cases hdue : u.completionDue e.target with
  | none =>
    have hnone := List.find?_eq_none.mp hdue e he
    simp [hr, ha] at hnone
  | some x =>
    have hx := List.mem_of_find?_eq_some hdue
    have hfound := List.find?_some hdue
    simp only [Bool.and_eq_true, decide_eq_true_eq] at hfound
    rw [keyed_unique hkeyed hx he hfound.1.1 (hfound.1.2.trans hr.symm)]

theorem delayExpiry_starts (hr : s.inReset = false) (hdue : s.fade.delayDue e.target = some e) (hd : 0 < e.duration) :
    exec (.delayExpiry e.target) s = .next { s with fade := s.fade.startWaiting e.target } := by
  have hact : actDelayExpiry e.target s = { s with fade := s.fade.startWaiting e.target } := by
    unfold actDelayExpiry
    rw [hdue]
    exact if_pos hd
  exact event_quiet hr hact rfl

theorem delayExpiry_snaps (hr : s.inReset = false) (hdue : s.fade.delayDue e.target = some e) (hd : e.duration = 0) :
    exec (.delayExpiry e.target) s =
      .next (leftByCompletion e.owner ((s.fade.dropAll e.target).setRest e.target e.goal) s) := by
  have hact : actDelayExpiry e.target s =
      leftByCompletion e.owner ((s.fade.dropAll e.target).setRest e.target e.goal) s := by
    unfold actDelayExpiry
    rw [hdue, ← settle_recordCompletion]
    exact if_neg (by omega)
  exact event_quiet hr hact (present_leftByCompletion _ _ s)

theorem fadeCompletion_ends (hr : s.inReset = false) (hdue : s.fade.completionDue e.target = some e) :
    exec (.fadeCompletion e.target) s =
      .next (leftByCompletion e.owner ((s.fade.dropRunning e.target).setRest e.target e.goal) s) := by
  have hact : actFadeCompletion e.target s =
      leftByCompletion e.owner ((s.fade.dropRunning e.target).setRest e.target e.goal) s := by
    unfold actFadeCompletion
    rw [hdue, ← settle_recordCompletion]
  exact event_quiet hr hact (present_leftByCompletion _ _ s)

/-- Settles O27: the entry that is due is the only one of its target and phase. -/
theorem fadesExpire : Obligations.FadesExpire := by
  refine ⟨fun s e hr hkeyed he hp => ⟨fun hd => ?starts, fun hd => ?snaps⟩,
    fun s e start elapsed hr hkeyed he hp helapsed => ?ends⟩
  case starts => exact delayExpiry_starts hr (delayDue_eq hkeyed he hp) hd
  case snaps => exact delayExpiry_snaps hr (delayDue_eq hkeyed he hp) hd
  case ends =>
    exact fadeCompletion_ends hr
      (completionDue_eq hkeyed he (isRunning_of_running hp) (arrived_of_running hp helapsed))

end Expiries

/-! ### The completion of a resolution (R84, R95–R98) -/

section Completion

variable {s : State} {r : Resolution}

theorem completeResolution_state (h : s.play.state = .resolving r) : actResolutionCompletion s = { s with
    fade := s.fade.resolveAll s.out.windows (walkFrom s.cues.table r.goal) r.gotoTime
    mute := s.mute.handOver (walkFrom s.cues.table r.goal), status := s.status.record .resolveDone
    play := { s.play with
      current := r.goal, standby := computedStandby s.cues.table r.goal
      state := if r.holdRequested then .held
        else if (s.fade.resolveAll s.out.windows (walkFrom s.cues.table r.goal) r.gotoTime).entries.isEmpty then .standby
        else .running
      freeze := r.holdRequested } } := by
  unfold actResolutionCompletion
  rw [h]
  dsimp only
  rw [completeResolution_eq, completeResolution_play]
  cases r.holdRequested <;> rfl

theorem handOver_groupStates (u : MuteUnit) (walk : List CueRecord) (m : MuteGroup) :
    (u.handOver walk).groupStates[m] = resolvedMute (.group m) walk := by
  simp [MuteUnit.handOver, reevaluate]

theorem handOver_flags (u : MuteUnit) (walk : List CueRecord) (c : Channel) :
    (u.handOver walk).flags[c] = decide (resolvedMute (.channel c) walk = .mute) := by
  have hmute : ∀ m : MuteState, m.isMute = decide (m = .mute) := fun m => by cases m <;> rfl
  simp [MuteUnit.handOver, reevaluate, hmute]

/-- Settles O28, from the targets resolved in order and the mute states handed over. -/
theorem resolutionCompletes : Obligations.ResolutionCompletes := by
  intro s r hr hstate
  obtain ⟨hentries, hrest, hbase, hlast⟩ := resolve_spec s.out.windows (walkFrom s.cues.table r.goal) r.gotoTime
    (List.finRange 80) (List.nodup_finRange 80) s.fade
  refine ⟨?command, ?entries, fun t => ?rest, hbase, hlast, handOver_groupStates _ _, handOver_flags _ _,
    fun c => reevaluate_ramps_get _ _ c, rfl⟩
  case command =>
    change event actResolutionCompletion s = _
    rw [event_run hr, completeResolution_state hstate]
  case entries =>
    refine hentries.trans ?_
    simp only [List.mem_finRange, decide_true, Bool.true_and]
    rfl
  case rest =>
    refine (hrest t).trans ?_
    simp only [List.mem_finRange, true_and]
    rfl

end Completion

/-! ### The backward search, and one target (R92, R93, R95, R96) -/

section Search

theorem mem_walkFrom {table : List CueRecord} {goal : Nat} {r : CueRecord} :
    r ∈ walkFrom table goal ↔ r ∈ table ∧ r.number ≤ goal := by
  simp [walkFrom]

theorem walkFrom_descends {table : List CueRecord} (goal : Nat)
    (h : table.Pairwise fun a b => a.number < b.number) :
    (walkFrom table goal).Pairwise fun a b => b.number < a.number :=
  List.pairwise_reverse.mpr (h.filter _)

section Down

variable {α β : Type} {items : CueRecord → List α} {hit : α → Bool} {value : α → β} {base : β}

/-- The search down a walk that both resolutions are: the first cue with a hit gives its value, a BLOCK cue without one
ends the search at the base. -/
def searchDown (items : CueRecord → List α) (hit : α → Bool) (value : α → β) (base : β) : List CueRecord → β
  | [] => base
  | r :: rest =>
    match (items r).find? hit with
    | some a => value a
    | none => if r.kind = .block then base else searchDown items hit value base rest

theorem resolvedPosition_search (t : Target) (base : Nat) (walk : List CueRecord) : resolvedPosition t base walk =
    searchDown (·.moves) (fun m => decide (m.target = t)) (·.position) base walk := by
  induction walk with
  | nil => rfl
  | cons r rest ih =>
    unfold resolvedPosition searchDown
    rw [ih]
    cases r.moves.find? (fun m => decide (m.target = t)) <;> rfl

theorem resolvedMute_search (u : MuteSubject) (walk : List CueRecord) : resolvedMute u walk =
    searchDown (·.actions) (fun a => decide (a.subject = u)) (·.state) .opened walk := by
  induction walk with
  | nil => rfl
  | cons r rest ih =>
    unfold resolvedMute searchDown
    rw [ih]
    cases r.actions.find? (fun a => decide (a.subject = u)) <;> rfl

/-- The search stops at the first cue that has a hit or is a BLOCK cue. -/
theorem searchDown_eq (walk : List CueRecord) : searchDown items hit value base walk =
    ((walk.find? fun r => (items r).any hit || decide (r.kind = .block)).bind fun r =>
      ((items r).find? hit).map value).getD base := by
  induction walk with
  | nil => rfl
  | cons r rest ih =>
    unfold searchDown
    cases hfound : (items r).find? hit with
    | some a =>
      have hany : (items r).any hit = true :=
        List.any_eq_true.mpr ⟨a, List.mem_of_find?_eq_some hfound, List.find?_some hfound⟩
      rw [List.find?_cons_of_pos (by rw [hany, Bool.true_or])]
      simp only [hfound, Option.bind_some, Option.map_some, Option.getD_some]
    | none =>
      have hany : (items r).any hit = false := List.any_eq_false.mpr (List.find?_eq_none.mp hfound)
      by_cases hk : r.kind = .block
      · rw [List.find?_cons_of_pos (by rw [decide_eq_true hk, Bool.or_true])]
        simp only [hfound, hk, if_true, Option.bind_some, Option.map_none, Option.getD_none]
      · rw [List.find?_cons_of_neg (by rw [hany, decide_eq_false hk]; decide), ← ih]
        exact if_neg hk

end Down

variable {ws : Vector (Option Window) 8} {walk : List CueRecord} {time : Nat} {u : FadeEngine} {t : Target}

theorem resolveTarget_locked (h : targetLocked ws t = true) : u.resolveTarget ws walk time t = u :=
  if_pos h

theorem needsInstall_iff {p : Nat} :
    u.needsInstall t p = true ↔ p ≠ u.automation t ∨ ∃ e ∈ u.entries, e.target = t := by
  simp [FadeEngine.needsInstall]

theorem resolveTarget_stays (h : resolvedPosition t u.base[t] walk = u.automation t)
    (hnone : ∀ e ∈ u.entries, e.target ≠ t) : u.resolveTarget ws walk time t = u := by
  have hneeds : u.needsInstall t (resolvedPosition t u.base[t] walk) = false :=
    Bool.eq_false_iff.mpr fun e => (needsInstall_iff.mp e).elim (· h) fun ⟨e, he, ht⟩ => hnone e he ht
  rw [resolveTarget_eq]
  unfold FadeEngine.installs
  rw [hneeds, Bool.and_false]
  rfl

theorem resolveTarget_installs (h : targetLocked ws t = false)
    (hneeds : resolvedPosition t u.base[t] walk ≠ u.automation t ∨ ∃ e ∈ u.entries, e.target = t) :
    u.resolveTarget ws walk time t = u.install t (resolvedPosition t u.base[t] walk) time := by
  rw [resolveTarget_eq]
  unfold FadeEngine.installs
  rw [h, needsInstall_iff.mpr hneeds]
  rfl

/-- Settles O29: the searches by induction along the walk, the target by whether it is locked and needs installing. -/
theorem targetsResolved : Obligations.TargetsResolved := by
  refine ⟨fun table goal h => ⟨fun r => mem_walkFrom, walkFrom_descends goal h,
      fun t base => ?position, fun u => ?mute⟩,
    fun ws walk time u t => ⟨resolveTarget_locked, resolveTarget_stays,
      fun h hneeds => ⟨fun htime => ?fades, fun htime => ?sets⟩⟩⟩
  case position =>
    rw [resolvedPosition_search, searchDown_eq]
    cases (walkFrom table goal).find? _ with
    | none => rfl
    | some r => dsimp only [Option.bind_some]; cases r.moves.find? (fun m => decide (m.target = t)) <;> rfl
  case mute =>
    rw [resolvedMute_search, searchDown_eq]
    cases (walkFrom table goal).find? _ with
    | none => rfl
    | some r => dsimp only [Option.bind_some]; cases r.actions.find? (fun a => decide (a.subject = u)) <;> rfl
  case fades =>
    rw [resolveTarget_installs h hneeds]
    exact if_pos htime
  case sets =>
    rw [resolveTarget_installs h hneeds]
    exact if_neg (by omega)

end Search

end Sys2Proof.Machine

/-! The fader law and the combiner (R8–R15): each segment's level, the direction of the whole law, and what a higher
position or a higher attenuation does to a level code. -/

namespace Sys2Proof.Machine

open Sys2Proof.Safety

/-! ### One segment -/

section Segments

variable {g : Segment} {p q : Nat}

theorem segment_rises : ∀ g ∈ segments, g.fromPos < g.toPos ∧ g.fromLevel ≤ g.toLevel := by
  decide

theorem segments_ascend : segments.Pairwise fun a b => a.toPos ≤ b.fromPos := by
  decide

/-- In ascending segments the first whose end lies above a position is the one that holds it. -/
theorem find?_ascending {l : List Segment} (h : l.Pairwise fun a b => a.toPos ≤ b.fromPos) (hg : g ∈ l)
    (hlow : g.fromPos ≤ p) (hhigh : p < g.toPos) : l.find? (fun x => decide (p < x.toPos)) = some g := by
  induction l with
  | nil => cases hg
  | cons a l ih =>
    obtain ⟨ha, hl⟩ := List.pairwise_cons.mp h
    rcases List.mem_cons.mp hg with rfl | hg
    · exact List.find?_cons_of_pos (decide_eq_true hhigh)
    · have hbelow := ha g hg
      rw [List.find?_cons_of_neg (by simp; omega)]
      exact ih hl hg

/-- A position below the top belongs to the segment that holds it. -/
theorem segmentOf_eq (hg : g ∈ segments) (hlow : g.fromPos ≤ p) (hhigh : p < g.toPos) : segmentOf p = g := by
  unfold segmentOf
  rw [find?_ascending segments_ascend hg hlow hhigh]
  rfl

theorem exists_segment (h1 : 1 ≤ p) (h2 : p < 1023) : ∃ g ∈ segments, g.fromPos ≤ p ∧ p < g.toPos := by
  simp only [segments, List.mem_cons, List.not_mem_nil, or_false, exists_eq_or_imp, exists_eq_left]
  omega

theorem levelAt_mono (hg : g ∈ segments) (h : p ≤ q) : g.levelAt p ≤ g.levelAt q := by
  obtain ⟨hwidth, hlevel⟩ := segment_rises g hg
  have hproduct : (g.toLevel - g.fromLevel) * ((p : Int) - g.fromPos) ≤
      (g.toLevel - g.fromLevel) * ((q : Int) - g.fromPos) :=
    Int.mul_le_mul_of_nonneg_left (by omega) (by omega)
  unfold Segment.levelAt
  exact Int.ediv_le_ediv (by omega) (by omega)

/-- The exact value to nearest, ties toward plus infinity (R9). -/
theorem levelAt_nearest (hg : g ∈ segments) (p : Nat) :
    let w : Int := (g.toPos : Int) - g.fromPos
    let exact : Int := g.fromLevel * w + (g.toLevel - g.fromLevel) * ((p : Int) - g.fromPos)
    2 * exact - w < 2 * w * g.levelAt p ∧ 2 * w * g.levelAt p ≤ 2 * exact + w := by
  have hwidth : (0 : Int) < 2 * ((g.toPos : Int) - g.fromPos) := by
    have := (segment_rises g hg).1
    omega
  intro w exact
  have hle : 2 * w * ((2 * exact + w) / (2 * w)) ≤ 2 * exact + w := Int.mul_ediv_self_le (by omega)
  have hlt : 2 * exact + w < 2 * w * ((2 * exact + w) / (2 * w)) + 2 * w := Int.lt_mul_ediv_self_add hwidth
  change 2 * exact - w < 2 * w * ((2 * exact + w) / (2 * w)) ∧ 2 * w * ((2 * exact + w) / (2 * w)) ≤ 2 * exact + w
  exact ⟨by omega, hle⟩

theorem levelAt_ends : ∀ g ∈ segments, g.levelAt g.fromPos = g.fromLevel ∧ g.levelAt g.toPos = g.toLevel := by
  decide

theorem lawLevel_ends : ∀ g ∈ segments, lawLevel g.fromPos = g.fromLevel ∧ lawLevel g.toPos = g.toLevel := by
  decide

/-- A segment gives the level of every position it holds, its upper end included. -/
theorem lawLevel_segment (hg : g ∈ segments) (hlow : g.fromPos ≤ p) (hhigh : p ≤ g.toPos) :
    lawLevel p = g.levelAt p := by
  rcases Nat.lt_or_eq_of_le hhigh with h | rfl
  · unfold lawLevel
    rw [segmentOf_eq hg hlow h]
  · rw [(lawLevel_ends g hg).2, (levelAt_ends g hg).2]

end Segments

/-! ### The law -/

section Law

variable {p q : Nat}

theorem lawLevel_step (h1 : 1 ≤ p) (h2 : p < 1023) : lawLevel p ≤ lawLevel (p + 1) := by
  obtain ⟨g, hg, hlow, hhigh⟩ := exists_segment h1 h2
  rw [lawLevel_segment hg hlow (Nat.le_of_lt hhigh), lawLevel_segment hg (Nat.le_succ_of_le hlow) hhigh]
  exact levelAt_mono hg (Nat.le_succ p)

theorem lawLevel_mono (h1 : 1 ≤ p) (h : p ≤ q) (h2 : q ≤ 1023) : lawLevel p ≤ lawLevel q := by
  induction h with
  | refl => exact Int.le_refl _
  | @step q hq ih => exact Int.le_trans (ih (Nat.le_of_succ_le h2)) (lawLevel_step (Nat.le_trans h1 hq) h2)

/-- The breakpoints of the law and its values beside the two ends (R8). -/
theorem lawLevel_values : [1, 128, 256, 384, 512, 640, 768, 896, 1023].map lawLevel =
    [-900, -600, -400, -300, -200, -100, 0, 50, 100] ∧ lawLevel 1 = -900 ∧ -900 < lawLevel 2
      ∧ lawLevel 1021 < 100 ∧ lawLevel 1022 = 100 ∧ lawLevel 1023 = 100 := by
  decide

theorem lawLevel_bounds (h1 : 1 ≤ p) (h2 : p ≤ 1023) : -900 ≤ lawLevel p ∧ lawLevel p ≤ 100 := by
  obtain ⟨-, hfirst, -, -, -, hlast⟩ := lawLevel_values
  have hlow := lawLevel_mono (Nat.le_refl 1) h1 h2
  have hhigh := lawLevel_mono h1 h2 (Nat.le_refl 1023)
  omega

theorem lawLevel_lowest (h1 : 1 ≤ p) (h2 : p ≤ 1023) : lawLevel p = -900 ↔ p = 1 := by
  obtain ⟨-, hfirst, hsecond, -⟩ := lawLevel_values
  refine ⟨fun h => ?_, fun h => h ▸ hfirst⟩
  refine Decidable.byContradiction fun hne => ?_
  have hhigh := lawLevel_mono (p := 2) (by decide) (by omega) h2
  omega

theorem lawLevel_highest (h1 : 1 ≤ p) (h2 : p ≤ 1023) : lawLevel p = 100 ↔ 1022 ≤ p := by
  obtain ⟨-, -, -, hbelow, hreached, -⟩ := lawLevel_values
  refine ⟨fun h => ?_, fun h => ?_⟩
  · refine Decidable.byContradiction fun hlt => ?_
    have hhigh := lawLevel_mono (q := 1021) h1 (by omega) (by decide)
    omega
  · have hlow := lawLevel_mono (p := 1022) (by decide) h h2
    have hhigh := (lawLevel_bounds h1 h2).2
    omega

theorem faderLaw_of_pos (h : 1 ≤ p) : faderLaw p = .level (lawLevel p) :=
  if_neg (by omega)

end Law

/-! ### The combiner -/

section Combiner

variable {c c' m m' : Nat} {gs gs' : List Nat}

theorem combine_off (h : c = 0 ∨ 0 ∈ gs) : combine c gs m = .off :=
  if_pos h

theorem combine_sum (hc : c ≠ 0) (hg : 0 ∉ gs) : combine c gs m =
    if min (lawLevel c + (gs.map lawLevel).sum) 100 - (m : Int) < -900 then .off
    else .level (min (lawLevel c + (gs.map lawLevel).sum) 100 - (m : Int)) :=
  if_neg (not_or.mpr ⟨hc, hg⟩)

theorem combine_sum_low (hc : c ≠ 0) (hg : 0 ∉ gs)
    (h : min (lawLevel c + (gs.map lawLevel).sum) 100 - (m : Int) < -900) : combine c gs m = .off := by
  rw [combine_sum hc hg, if_pos h]

theorem combine_sum_level (hc : c ≠ 0) (hg : 0 ∉ gs)
    (h : -900 ≤ min (lawLevel c + (gs.map lawLevel).sum) 100 - (m : Int)) :
    combine c gs m = .level (min (lawLevel c + (gs.map lawLevel).sum) 100 - (m : Int)) := by
  rw [combine_sum hc hg, if_neg (by omega)]

/-- A combination that is OFF only where the other is, sums no higher and is muted no less, stands no higher (R15). -/
theorem combine_noHigher (hzero : c' = 0 ∨ 0 ∈ gs' → c = 0 ∨ 0 ∈ gs)
    (hsum : c ≠ 0 → 0 ∉ gs → lawLevel c + (gs.map lawLevel).sum ≤ lawLevel c' + (gs'.map lawLevel).sum)
    (hm : m' ≤ m) : NoHigher (combine c gs m) (combine c' gs' m') := by
  by_cases hoff : c = 0 ∨ 0 ∈ gs
  · rw [combine_off hoff]
    trivial
  · obtain ⟨hc, hg⟩ := not_or.mp hoff
    obtain ⟨hc', hg'⟩ := not_or.mp fun h => hoff (hzero h)
    have hle := hsum hc hg
    by_cases hlow : min (lawLevel c + (gs.map lawLevel).sum) 100 - (m : Int) < -900
    · rw [combine_sum_low hc hg hlow]
      trivial
    · rw [combine_sum_level hc hg (by omega), combine_sum_level hc' hg' (by omega)]
      change min _ _ - _ ≤ min _ _ - _
      omega

theorem combine_channel_noHigher (hc : c ≤ c') (hmax : c' ≤ 1023) :
    NoHigher (combine c gs m) (combine c' gs m) := by
  refine combine_noHigher (Or.imp_left fun h => by omega) (fun hpos _ => ?_) (Nat.le_refl m)
  have hmono := lawLevel_mono (by omega) hc hmax
  omega

theorem combine_group_noHigher {p p' : Nat} {before after : List Nat} (hp : p ≤ p') (hmax : p' ≤ 1023) :
    NoHigher (combine c (before ++ p :: after) m) (combine c (before ++ p' :: after) m) := by
  refine combine_noHigher (Or.imp_right fun h => ?_) (fun _ hg => ?_) (Nat.le_refl m)
  · simp only [List.mem_append, List.mem_cons] at h ⊢
    exact h.imp_right (Or.imp_left fun h => by omega)
  · have hpos : 1 ≤ p := Nat.one_le_iff_ne_zero.mpr fun e => hg (by simp [e])
    have hmono := lawLevel_mono hpos hp hmax
    simp only [List.map_append, List.map_cons, List.sum_append, List.sum_cons]
    omega

/-- Settles O32: the law from its segments and its direction, the combiner from the sum it saturates and mutes. -/
theorem levelsAreExact : Obligations.LevelsAreExact := by
  refine ⟨⟨rfl, lawLevel_values.1, fun p h1 h2 => ⟨lawLevel_lowest h1 h2, lawLevel_highest h1 h2⟩,
      fun p h1 h2 => ⟨faderLaw_of_pos h1, lawLevel_bounds h1 h2⟩, lawLevel_ends, fun g hg p hlow hhigh => ?nearest,
      fun p => lawLevel_step⟩,
    fun c gs m => ⟨combine_off, fun hc hg => ⟨combine_sum_low hc hg, fun h => ⟨combine_sum_level hc hg h, by omega⟩⟩,
      fun m' hm => combine_noHigher id (fun _ _ => Int.le_refl _) hm⟩,
    fun c c' p p' before after m hc hcmax hp hpmax => ⟨combine_channel_noHigher hc hcmax,
      combine_group_noHigher hp hpmax, combine_channel_noHigher hc hcmax⟩⟩
  case nearest =>
    rw [lawLevel_segment hg hlow (Nat.le_of_lt hhigh)]
    exact levelAt_nearest hg p

end Combiner

end Sys2Proof.Machine

/-! The automation and effective positions of a target, and the level code of a channel (R11, R67, R103). -/

namespace Sys2Proof.Machine

open Sys2Proof.Safety

section Positions

variable {u : FadeEngine} {s : State} {t : Target}

/-- An entry with a curve value is RUNNING. -/
theorem isRunning_of_value {e : FadeEntry} {p : Nat} (h : e.value? = some p) : e.isRunning = true := by
  refine eq_true_of_ne_false fun hwaiting => ?_
  rw [value?_of_waiting hwaiting] at h
  cases h

theorem automation_running {e : FadeEntry} {start elapsed : Nat} (hkeyed : u.entries.Pairwise KeyDiffers)
    (he : e ∈ u.entries) (hp : e.phase = .running start elapsed) :
    u.automation e.target = blend start e.goal (shape e.curve (4096 * elapsed / e.duration)) := by
  have hvalue := value?_of_running hp
  unfold FadeEngine.automation
  cases hfound : u.entries.findSome? (fun x => if x.target = e.target then x.value? else none) with
  | none =>
    have hnone := List.findSome?_eq_none_iff.mp hfound e he
    rw [if_pos rfl, hvalue] at hnone
    cases hnone
  | some p =>
    obtain ⟨x, hx, hxvalue⟩ := List.exists_of_findSome?_eq_some hfound
    split at hxvalue
    next htarget =>
      have hsame : x = e := keyed_unique hkeyed hx he htarget
        ((isRunning_of_value hxvalue).trans (isRunning_of_running hp).symm)
      rw [hsame, hvalue] at hxvalue
      exact (Option.some.inj hxvalue).symm
    next => cases hxvalue

theorem automation_rest (h : ∀ e ∈ u.entries, ∀ start elapsed, e.target = t → e.phase ≠ .running start elapsed) :
    u.automation t = u.rest[t] := by
  have hnone : u.entries.findSome? (fun e => if e.target = t then e.value? else none) = none := by
    refine List.findSome?_eq_none_iff.mpr fun e he => ?_
    split
    next htarget =>
      unfold FadeEntry.value?
      cases hp : e.phase with
      | waiting => rfl
      | running start elapsed => exact absurd hp (h e he start elapsed htarget)
    next => rfl
  unfold FadeEngine.automation
  rw [hnone]
  rfl

theorem effective_of_auto (h : s.own.owners[t] = .auto) : effective s t = s.fade.automation t := by
  simp only [effective, h]

theorem effective_of_operator {i : Strip} (h : s.own.owners[t] = .operator i) :
    effective s t = s.own.strips[i].lastPosition := by
  simp only [effective, h]

theorem effective_of_parked {position start duration elapsed : Nat}
    (h : s.own.owners[t] = .parked position start duration elapsed) :
    effective s t = rampValue position start duration elapsed := by
  simp only [effective, h]

/-- Settles O33, source by source. -/
theorem positionsComputed : Obligations.PositionsComputed := by
  intro s
  refine ⟨fun e start elapsed hkeyed he hp => automation_running hkeyed he hp, fun t h => automation_rest h,
    fun t => ⟨effective_of_auto, fun i => effective_of_operator, fun _ _ _ => effective_of_glide,
      fun _ _ _ _ => effective_of_parked⟩,
    ⟨rfl, rfl, fun _ _ _ _ => rfl, fun _ _ _ => rfl⟩, fun c x hx =>
      ⟨s.mute.groups[c].map fun g => effective s (groupTarget g), ?code, List.length_map _, fun k g y hk hy => ?group⟩⟩
  case code =>
    have hchannel : channelTarget c = x := Fin.ext hx.symm
    unfold channelCode
    rw [hchannel]
  case group =>
    have hgroup : y = groupTarget g := Fin.ext hy
    rw [hgroup, List.getElem?_map, hk]
    rfl

end Positions

end Sys2Proof.Machine

/-! Surface reports (R108–R116, R165): the report taken, and what it does to strips and owners. -/

namespace Sys2Proof.Machine

open Sys2Proof.Safety

/-! ### A valid report (R108, R113, R116) -/

section Reports

variable {s : State}

/-- A report makes the surface present, which changes the present-state set where it was absent (R108, R177). -/
theorem surfaceReport_next (scan : Byte) (words : Vector Word16 16) (hr : s.inReset = false) :
    exec (.surfaceReport scan words) s = .next (if s.surface.present then actSurfaceReport scan words s
      else latch .stateChanged (actSurfaceReport scan words s)) := by
  change event (actSurfaceReport scan words) s = _
  rw [event_run hr]
  cases hp : s.surface.present
  · have hne : present s ≠ present (actSurfaceReport scan words s) := fun h => by
      have hsurface : s.surface.present = true := congrArg Present.surface h
      rw [hp] at hsurface
      cases hsurface
    rw [noteChanges_of_ne hne]
    rfl
  · have heq : present s = present (actSurfaceReport scan words s) := by
      unfold present
      rw [hp]
      rfl
    rw [noteChanges_same heq]
    rfl

theorem motorFrame_words (s : State) (scan : Byte) (words : Vector Word16 16) (i : Strip) :
    (motorFrame s scan words).words[i] = motorWord s words i := by
  simp [motorFrame]

theorem takeFirstReport_strips (u : Ownership) (words : Vector Word16 16) (i : Strip) :
    (u.takeFirstReport words).strips[i] =
      if wordTouch words[i] then ⟨.blocked, wordPosition words[i]⟩ else u.strips[i] := by
  unfold Ownership.takeFirstReport
  rw [(absentPasses_spec words allStrips u).1 i]
  simp only [mem_allStrips, true_and]

theorem takeFirstReport_owners (u : Ownership) (words : Vector Word16 16) :
    (u.takeFirstReport words).owners = u.owners := by
  unfold Ownership.takeFirstReport
  rw [(absentPasses_spec words allStrips u).2]

/-- Settles O34, from the report's one change and its motor frame. -/
theorem reportsTaken : Obligations.ReportsTaken := by
  intro scan words s hr
  refine ⟨surfaceReport_next scan words hr, fun i => motorFrame_words _ scan words i, rfl, rfl, fun habsent => ?_⟩
  rw [if_neg (Bool.eq_false_iff.mp habsent)]
  exact ⟨takeFirstReport_owners _ _, takeFirstReport_strips _ _⟩

end Reports

/-! ### One strip alone (R109–R112) -/

section OneStrip

variable {u v : Ownership} {words : Vector Word16 16} {i : Strip}

/-- Every strip but one is IDLE. -/
def OthersIdle (i : Strip) (u : Ownership) : Prop :=
  ∀ j : Strip, j ≠ i → u.strips[j].state = .idle

theorem othersIdle_setStrip (h : OthersIdle i u) (r : StripRecord) : OthersIdle i (u.setStrip i r) := by
  intro j hj
  rw [setStrip_get, if_neg hj]
  exact h j hj

/-- A pass over all strips that leaves the idle ones alone is the pass over the one strip. -/
theorem foldl_oneStrip {pass : Ownership → Strip → Ownership} {L : List Strip} (hn : L.Nodup) (hi : i ∈ L)
    (hother : ∀ v j, j ≠ i → OthersIdle i v → pass v j = v) (hkeep : ∀ v, OthersIdle i v → OthersIdle i (pass v i))
    (h : OthersIdle i u) : L.foldl pass u = pass u i := by
  have hrest : ∀ (L : List Strip) (v : Ownership), OthersIdle i v → i ∉ L → L.foldl pass v = v := by
    intro L
    induction L with
    | nil => exact fun _ _ _ => rfl
    | cons j L ih =>
      intro v hv hj
      obtain ⟨hji, hL⟩ := not_or.mp fun hmem => hj (List.mem_cons.mpr hmem)
      rw [List.foldl_cons, hother v j (Ne.symm hji) hv]
      exact ih v hv hL
  induction L generalizing u with
  | nil => cases hi
  | cons j L ih =>
    obtain ⟨hj, hn⟩ := List.nodup_cons.mp hn
    rw [List.foldl_cons]
    by_cases hji : j = i
    · subst hji
      exact hrest L _ (hkeep u h) hj
    · rw [hother u j hji h]
      exact ih hn (List.mem_of_ne_of_mem (Ne.symm hji) hi) h

theorem touchFall_idle (h : u.strips[i].state = .idle) : u.touchFall i = u := by
  unfold Ownership.touchFall
  rw [h]

theorem touchFall_blocked (h : u.strips[i].state = .blocked) :
    u.touchFall i = u.setStrip i ⟨.idle, u.strips[i].lastPosition⟩ := by
  unfold Ownership.touchFall
  rw [h]

theorem touchFall_touched {t : Target} {k : Option StuckTimer} (h : u.strips[i].state = .touched t k) :
    u.touchFall i = (u.letGo t u.strips[i].lastPosition).setStrip i ⟨.idle, u.strips[i].lastPosition⟩ := by
  unfold Ownership.touchFall
  rw [h]

theorem touchHold_idle {p : Nat} (h : u.strips[i].state = .idle) : u.touchHold i p = u := by
  unfold Ownership.touchHold
  rw [h]

theorem touchHold_blocked {p : Nat} (h : u.strips[i].state = .blocked) :
    u.touchHold i p = u.setStrip i ⟨.blocked, p⟩ := by
  unfold Ownership.touchHold
  rw [h]

theorem touchHold_touched {p : Nat} {t : Target} {k : Option StuckTimer} (h : u.strips[i].state = .touched t k) :
    u.touchHold i p = u.setStrip i ⟨.touched t (k.map (·.hold p)), p⟩ := by
  unfold Ownership.touchHold
  rw [h]

theorem fallPass_touch (h : wordTouch words[i] = true) : fallPass words u i = u :=
  if_pos h

theorem fallPass_fall (h : wordTouch words[i] = false) : fallPass words u i = u.touchFall i :=
  if_neg (Bool.eq_false_iff.mp h)

theorem holdPass_touch (h : wordTouch words[i] = true) :
    holdPass words u i = u.touchHold i (wordPosition words[i]) :=
  if_pos h

theorem holdPass_untouched (h : wordTouch words[i] = false) : holdPass words u i = u :=
  if_neg (Bool.eq_false_iff.mp h)

theorem touchFall_othersIdle (h : OthersIdle i u) : OthersIdle i (u.touchFall i) := by
  unfold Ownership.touchFall
  split
  · exact othersIdle_setStrip (u := u.letGo _ _) h _
  · exact othersIdle_setStrip h _
  · exact h

theorem touchHold_othersIdle {p : Nat} (h : OthersIdle i u) : OthersIdle i (u.touchHold i p) := by
  unfold Ownership.touchHold
  split
  · exact othersIdle_setStrip h _
  · exact othersIdle_setStrip h _
  · exact h

theorem fallPass_othersIdle (h : OthersIdle i u) : OthersIdle i (fallPass words u i) := by
  unfold fallPass
  split
  · exact h
  · exact touchFall_othersIdle h

theorem holdPass_othersIdle (h : OthersIdle i u) : OthersIdle i (holdPass words u i) := by
  unfold holdPass
  split
  · exact touchHold_othersIdle h
  · exact h

theorem touchRise_othersIdle {p : Nat} (h : OthersIdle i u) : OthersIdle i (u.touchRise i p) := by
  unfold Ownership.touchRise
  split
  · exact othersIdle_setStrip h _
  · exact othersIdle_setStrip h _

theorem risePass_othersIdle {before : Ownership} (h : OthersIdle i u) : OthersIdle i (risePass before words u i) := by
  unfold risePass
  split
  · exact touchRise_othersIdle h
  · exact h

/-- A report in which one strip alone moves is that strip's three passes. -/
theorem takeReport_oneStrip (h : ∀ j : Strip, j ≠ i → u.strips[j].state = .idle ∧ wordTouch words[j] = false) :
    u.takeReport words = risePass u words (holdPass words (fallPass words u i) i) i := by
  have hidle : OthersIdle i u := fun j hj => (h j hj).1
  have hfalls : allStrips.foldl (fallPass words) u = fallPass words u i :=
    foldl_oneStrip allStrips_nodup (mem_allStrips i)
      (fun v j hj hv => by rw [fallPass_fall (h j hj).2, touchFall_idle (hv j hj)]) (fun _ => fallPass_othersIdle) hidle
  have hholds : ∀ v, OthersIdle i v → allStrips.foldl (holdPass words) v = holdPass words v i := fun v hv =>
    foldl_oneStrip allStrips_nodup (mem_allStrips i) (fun w j hj _ => holdPass_untouched (h j hj).2)
      (fun _ => holdPass_othersIdle) hv
  have hrises : ∀ v, OthersIdle i v → allStrips.foldl (risePass u words) v = risePass u words v i := fun v hv =>
    foldl_oneStrip allStrips_nodup (mem_allStrips i)
      (fun w j hj _ => risePass_not (fun hr => absurd ((h j hj).2.symm.trans hr.1) (by decide)) w)
      (fun _ => risePass_othersIdle) hv
  have hfallen := fallPass_othersIdle (words := words) hidle
  unfold Ownership.takeReport
  dsimp only
  rw [hfalls, hholds _ hfallen, hrises _ (holdPass_othersIdle hfallen)]

variable (h : ∀ j : Strip, j ≠ i → u.strips[j].state = .idle ∧ wordTouch words[j] = false)
include h

theorem takeReport_falls (hw : wordTouch words[i] = false) : u.takeReport words = u.touchFall i := by
  rw [takeReport_oneStrip h, fallPass_fall hw, holdPass_untouched hw,
    risePass_not fun hr => absurd (hw.symm.trans hr.1) (by decide)]

theorem takeReport_holds (hw : wordTouch words[i] = true) (hs : u.strips[i].state ≠ .idle) :
    u.takeReport words = u.touchHold i (wordPosition words[i]) := by
  rw [takeReport_oneStrip h, fallPass_touch hw, holdPass_touch hw, risePass_not fun hr => hs hr.2]

theorem takeReport_rises (hw : wordTouch words[i] = true) (hs : u.strips[i].state = .idle) :
    u.takeReport words = u.touchRise i (wordPosition words[i]) := by
  rw [takeReport_oneStrip h, fallPass_touch hw, holdPass_touch hw, touchHold_idle hs, risePass_rises ⟨hw, hs⟩]

end OneStrip

section Rise

variable {u : Ownership} {i : Strip} {p : Nat} {t : Target}

theorem touchRise_unclaimed (h : u.claimable i = none) : u.touchRise i p = u.setStrip i ⟨.blocked, p⟩ := by
  unfold Ownership.touchRise
  rw [h]

theorem touchRise_claims (h : u.claimable i = some t) : u.touchRise i p =
    (u.setStrip i ⟨.touched t (startStuck u.stuckTime p), p⟩).setOwner t (.operator i) := by
  unfold Ownership.touchRise
  rw [h]

theorem claimable_empty (h : u.bank[u.page][i] = none) : u.claimable i = none := by
  unfold Ownership.claimable
  rw [h]

theorem claimable_taken (hb : u.bank[u.page][i] = some t)
    (h : (∃ j, u.owners[t] = .operator j) ∨ ∃ a b c d, u.owners[t] = .parked a b c d) : u.claimable i = none := by
  unfold Ownership.claimable
  rw [hb]
  rcases h with ⟨j, h⟩ | ⟨_, _, _, _, h⟩ <;> simp only [h]

theorem claimable_free (hb : u.bank[u.page][i] = some t)
    (h : u.owners[t] = .auto ∨ ∃ a b c, u.owners[t] = .glide a b c) : u.claimable i = some t := by
  unfold Ownership.claimable
  rw [hb]
  rcases h with h | ⟨_, _, _, h⟩ <;> simp only [h]

end Rise

/-! ### Any strips at once (R109–R112) -/

section AllStrips

variable (u : Ownership) (words : Vector Word16 16)

/-- The Ownership Unit after a report's falls and holds, as its rises find it. -/
def heldOwn : Ownership :=
  allStrips.foldl (holdPass words) (allStrips.foldl (fallPass words) u)

theorem takeReport_risen (hd : (heldOwn u words).PageDistinct) :
    Risen u words allStrips (heldOwn u words) (u.takeReport words) :=
  rises_spec u words allStrips allStrips_nodup _ hd

variable {u words}

theorem heldOwn_owners_eq : (heldOwn u words).owners = (allStrips.foldl (fallPass words) u).owners := by
  unfold heldOwn
  rw [(holds_spec words allStrips allStrips_nodup _).2]

theorem activePage_of_rest {v : Ownership} (h : v = { u with owners := v.owners, strips := v.strips }) :
    v.bank[v.page] = u.bank[u.page] := by
  rw [h]

theorem stuckTime_of_rest {v : Ownership} (h : v = { u with owners := v.owners, strips := v.strips }) :
    v.stuckTime = u.stuckTime := by
  rw [h]

section Held

variable (h : u.Agree)
include h

theorem heldOwn_rest : heldOwn u words =
    { u with owners := (heldOwn u words).owners, strips := (heldOwn u words).strips } := by
  have hfalls := (falls_spec words allStrips h).2.2
  have hholds := (holds_spec words allStrips allStrips_nodup (allStrips.foldl (fallPass words) u)).2
  unfold heldOwn
  rw [hholds, hfalls]

theorem heldOwn_untouched {i : Strip} (hw : wordTouch words[i] = false) :
    (heldOwn u words).strips[i] = ⟨.idle, u.strips[i].lastPosition⟩ := by
  unfold heldOwn
  rw [(holds_spec words allStrips allStrips_nodup _).1 i, if_neg fun ht => absurd (hw.symm.trans ht.2) (by decide),
    (falls_spec words allStrips h).1 i, if_pos ⟨mem_allStrips i, hw⟩]

theorem heldOwn_touched {i : Strip} (hw : wordTouch words[i] = true) :
    (heldOwn u words).strips[i] = heldRecord u.strips[i] (wordPosition words[i]) := by
  unfold heldOwn
  rw [(holds_spec words allStrips allStrips_nodup _).1 i, if_pos ⟨mem_allStrips i, hw⟩,
    (falls_spec words allStrips h).1 i, if_neg fun hf => absurd (hw.symm.trans hf.2) (by decide)]

theorem heldOwn_operator {t : Target} {j : Strip} (ho : u.owners[t] = .operator j) : (heldOwn u words).owners[t] =
    if wordTouch words[j] then .operator j else u.released u.strips[j].lastPosition := by
  rw [heldOwn_owners_eq, (falls_spec words allStrips h).2.1 t, ho]
  cases hw : wordTouch words[j] <;> simp only [mem_allStrips, hw] <;> rfl

theorem heldOwn_other {t : Target} (ho : ∀ j, u.owners[t] ≠ .operator j) :
    (heldOwn u words).owners[t] = u.owners[t] := by
  rw [heldOwn_owners_eq, (falls_spec words allStrips h).2.1 t]
  cases hu : u.owners[t] with
  | operator j => exact absurd hu (ho j)
  | _ => rfl

theorem heldOwn_activePage :
    (heldOwn u words).bank[(heldOwn u words).page] = u.bank[u.page] :=
  activePage_of_rest (heldOwn_rest h)

theorem heldOwn_stuckTime : (heldOwn u words).stuckTime = u.stuckTime :=
  stuckTime_of_rest (heldOwn_rest h)

theorem heldOwn_pageDistinct (hd : u.PageDistinct) : (heldOwn u words).PageDistinct := by
  unfold Ownership.PageDistinct
  rw [heldOwn_activePage h]
  exact hd

/-- A strip's target on the page may be claimed once the falls are done: it is not PARKED, and no strip that the
report touches holds it. -/
theorem heldOwn_claimable (i : Strip) (t : Target) : (heldOwn u words).claimable i = some t ↔
    u.bank[u.page][i] = some t ∧ (∀ a b c d, u.owners[t] ≠ .parked a b c d)
      ∧ ∀ j, u.owners[t] = .operator j → wordTouch words[j] = false := by
  rw [claimable_iff, heldOwn_activePage h]
  refine and_congr_right fun _ => ?_
  by_cases ho : ∃ j, u.owners[t] = .operator j
  · obtain ⟨j, ho⟩ := ho
    rw [heldOwn_operator h ho, ho]
    cases hw : wordTouch words[j]
    · refine iff_of_true ⟨fun _ => released_ne_operator _ _ _, released_ne_parked _ _⟩ ⟨nofun, fun k hk => ?_⟩
      cases hk
      exact hw
    · exact iff_of_false (fun hfree => hfree.1 j rfl) fun hfree => absurd (hw.symm.trans (hfree.2 j rfl)) (by decide)
  · have hother := fun j hj => ho ⟨j, hj⟩
    rw [heldOwn_other h hother, and_comm]
    exact and_congr_right fun _ => iff_of_true hother fun j hj => absurd hj (hother j)

/-- A claim of the report: a rise of a strip whose target may be claimed once the falls are done. -/
theorem rises_claimable_iff (i : Strip) (t : Target) :
    (wordTouch words[i] = true ∧ u.strips[i].state = .idle ∧ u.bank[u.page][i] = some t
      ∧ (∀ a b c d, u.owners[t] ≠ .parked a b c d)
      ∧ ∀ j : Strip, u.owners[t] = .operator j → wordTouch words[j] = false)
      ↔ u.rises words i ∧ (heldOwn u words).claimable i = some t := by
  rw [heldOwn_claimable h, Ownership.rises, and_assoc]

end Held

theorem risenRecord_some {i : Strip} {p : Nat} {t : Target} (h : u.claimable i = some t) :
    u.risenRecord i p = ⟨.touched t (startStuck u.stuckTime p), p⟩ := by
  unfold Ownership.risenRecord
  rw [h]

theorem risenRecord_none {i : Strip} {p : Nat} (h : u.claimable i = none) : u.risenRecord i p = ⟨.blocked, p⟩ := by
  unfold Ownership.risenRecord
  rw [h]

theorem heldRecord_blocked {r : StripRecord} {p : Nat} (h : r.state = .blocked) : heldRecord r p = ⟨.blocked, p⟩ := by
  unfold heldRecord
  rw [h]

theorem heldRecord_touched {r : StripRecord} {p : Nat} {t : Target} {k : Option StuckTimer}
    (h : r.state = .touched t k) : heldRecord r p = ⟨.touched t (k.map (·.hold p)), p⟩ := by
  unfold heldRecord
  rw [h]

theorem wordTouch_iff (w : Word16) : wordTouch w = true ↔ 32768 ≤ w.toNat := by
  unfold wordTouch
  have := w.isLt
  rw [BitVec.getLsbD, Nat.testBit_eq_decide_div_mod_eq, decide_eq_true_eq]
  omega

end AllStrips

/-- Settles O35, from the three passes of a report: over one strip, and over all of them. -/
theorem touchesRiseHoldFall : Obligations.TouchesRiseHoldFall := by
  refine ⟨fun w => ⟨wordTouch_iff w, rfl⟩, fun u words i h => ?one, fun u words h hd => ?all⟩
  case one =>
    refine ⟨fun hw hs => ?_, fun hw hs => ?_, fun t k hw hs => ?_, fun hw hs => ?_, fun t k hw hs => ?_,
      fun hw hs => ⟨fun hb => ?_, fun t hb => ⟨fun ho => ?_, fun ho => ?_⟩⟩⟩
    · rw [takeReport_falls h hw, touchFall_idle hs]
    · rw [takeReport_falls h hw, touchFall_blocked hs]
    · rw [takeReport_falls h hw, touchFall_touched hs]
      rfl
    · rw [takeReport_holds h hw (by rw [hs]; nofun), touchHold_blocked hs]
    · rw [takeReport_holds h hw (by rw [hs]; nofun), touchHold_touched hs]
      rfl
    · rw [takeReport_rises h hw hs, touchRise_unclaimed (claimable_empty hb)]
    · rw [takeReport_rises h hw hs, touchRise_unclaimed (claimable_taken hb ho)]
    · rw [takeReport_rises h hw hs, touchRise_claims (claimable_free hb ho)]
      rfl
  case all =>
    have hrisen := takeReport_risen u words (heldOwn_pageDistinct h hd)
    have hnone : ∀ i : Strip, ¬u.rises words i →
        (u.takeReport words).strips[i] = (heldOwn u words).strips[i] := fun i hi => hrisen.same i fun _ => hi
    refine ⟨fun i hw => ?_, fun i hw hs => ?_, fun i t k hw hs => ?_, fun i t hc => ?_, fun i hw hs hc => ?_,
      fun t hc => ?_, ?_⟩
    · rw [hnone i fun hr => absurd (hw.symm.trans hr.1) (by decide), heldOwn_untouched h hw]
    · rw [hnone i fun hr => absurd (hs.symm.trans hr.2) nofun, heldOwn_touched h hw, heldRecord_blocked hs]
    · rw [hnone i fun hr => absurd (hs.symm.trans hr.2) nofun, heldOwn_touched h hw, heldRecord_touched hs]
      rfl
    · obtain ⟨hr, hclaim⟩ := (rises_claimable_iff h i t).mp hc
      rw [hrisen.risen i (mem_allStrips i) hr, risenRecord_some hclaim, heldOwn_stuckTime h]
      exact ⟨rfl, hrisen.claimed t i (mem_allStrips i) hr hclaim⟩
    · have hr : u.rises words i := ⟨hw, hs⟩
      rw [hrisen.risen i (mem_allStrips i) hr, risenRecord_none (Option.eq_none_iff_forall_ne_some.mpr fun t ht =>
        hc t ((rises_claimable_iff h i t).mpr ⟨hr, ht⟩))]
    · rw [hrisen.kept t fun i _ hr hclaim => hc i ((rises_claimable_iff h i t).mpr ⟨hr, hclaim⟩)]
      cases ho : u.owners[t] with
      | operator j => exact heldOwn_operator h ho
      | _ => exact (heldOwn_other h fun j hj => nomatch ho.symm.trans hj).trans ho
    · rw [hrisen.rest, heldOwn_rest h]

end Sys2Proof.Machine

/-! The surface port: its receiver (R165), its motor frames (R166) and its expiries (R114, R115, R118). -/

namespace Sys2Proof.Machine

open Sys2Proof.Safety

/-! ### The surface receiver (R165) -/

section SurfaceReceiver

variable {s : State}

/-- The surface port in RECEIVE with the bytes gathered so far. -/
def surfaceReceive (gathered : List Byte) (s : State) : State :=
  { s with surface := { s.surface with rx := .receive gathered } }

theorem dropSurfaceFrame_of_hunt (h : s.surface.rx = .hunt) : dropSurfaceFrame s = s := by
  unfold dropSurfaceFrame
  rw [← h]

theorem dropSurfaceFrame_receive (g : List Byte) (s : State) :
    dropSurfaceFrame (surfaceReceive g s) = dropSurfaceFrame s :=
  rfl

/-- A report is taken alike whatever the receiver holds: it goes to HUNT. -/
theorem actSurfaceReport_receive (scan : Byte) (words : Vector Word16 16) (g : List Byte) (s : State) :
    actSurfaceReport scan words (surfaceReceive g s) = actSurfaceReport scan words s := rfl

theorem surfaceByte_other {b : Byte} (h : s.surface.rx = .hunt) (hb : b ≠ surfaceLead) : surfaceByte s b = s := by
  unfold surfaceByte
  rw [h]
  exact if_neg hb

theorem surfaceByte_lead (h : s.surface.rx = .hunt) : surfaceByte s surfaceLead = surfaceReceive [] s := by
  unfold surfaceByte
  rw [h]
  rfl

/-- A whole frame, byte by byte in HUNT, is judged by its check. -/
theorem surfaceBytes_frame (scan : Byte) (words : Vector Word16 16) (check : Word16) (h : s.surface.rx = .hunt) :
    ∃ g, (surfaceLead :: scan :: stripBytes words ++ wordBytes check).foldl surfaceByte s =
      noteChanges (surfaceReceive g s) (actSurfaceCheck scan words check (surfaceReceive g s)) := by
  have hlength : (scan :: stripBytes words ++ wordBytes check).length = 35 := by
    rw [List.length_append, List.length_cons, stripBytes_length, wordBytes_length]
  exact ⟨_, (wholeSurface s _ h hlength).trans (congrArg (noteChanges _) (judgeSurface_frame scan words check _))⟩

theorem surfaceBytes_report (scan : Byte) (words : Vector Word16 16) (h : s.surface.rx = .hunt) :
    (surfaceLead :: reportBody scan words).foldl surfaceByte s = noteChanges s (actSurfaceReport scan words s) := by
  obtain ⟨g, hframe⟩ := surfaceBytes_frame scan words (surfaceCheck scan words) h
  refine Eq.trans hframe ?_
  unfold actSurfaceCheck
  rw [if_pos rfl, actSurfaceReport_receive]
  rfl

theorem surfaceBytes_dropped {scan : Byte} {words : Vector Word16 16} {check : Word16} (h : s.surface.rx = .hunt)
    (hcheck : check ≠ surfaceCheck scan words) :
    (surfaceLead :: scan :: stripBytes words ++ wordBytes check).foldl surfaceByte s = s := by
  obtain ⟨g, hframe⟩ := surfaceBytes_frame scan words check h
  rw [hframe]
  unfold actSurfaceCheck
  rw [if_neg hcheck, dropSurfaceFrame_receive, dropSurfaceFrame_of_hunt h]
  exact noteChanges_same rfl

/-- A frame that breaks off before its last byte leaves the port in HUNT and nothing else. -/
theorem actSurfaceAbandon_begun {bytes : List Byte} (h : s.surface.rx = .hunt) (hlength : bytes.length < 35) :
    actSurfaceAbandon (surfaceLead :: bytes) s = dropSurfaceFrame s := by
  unfold actSurfaceAbandon
  rw [List.foldl_cons, surfaceByte_lead h,
    gatherSurface (surfaceReceive [] s) [] bytes rfl (by rw [List.length_nil, Nat.zero_add]; exact hlength)]
  rfl

/-- Settles O36, from the receiver's gathering and its judgement of whole frames. -/
theorem surfaceFramesReceived : Obligations.SurfaceFramesReceived := by
  intro s hr
  refine ⟨fun hhunt => ⟨fun scan words => ?report, fun scan words check => surfaceBytes_dropped hhunt,
    fun b => surfaceByte_other hhunt⟩, fun scan words check hcheck => ?dropped, fun bytes hhunt hlength => ?begun,
    event_quiet hr rfl rfl, fun _ => event_quiet hr rfl rfl, fun m rest hqueue => ?motor⟩
  case report =>
    rw [surfaceBytes_report scan words hhunt]
    exact event_run hr _
  case dropped => exact event_quiet hr (if_neg hcheck) rfl
  case begun =>
    have hbegun := actSurfaceAbandon_begun hhunt hlength
    exact ⟨event_quiet hr hbegun rfl, fun _ => event_quiet hr hbegun rfl⟩
  case motor =>
    refine event_quiet hr ?_ rfl
    unfold actMotorFrameSend
    rw [hqueue]

end SurfaceReceiver

/-! ### Expiries (R114, R115, R118) -/

section SurfaceExpiries

variable {s : State}

/-- Every OPERATOR target is let go at a surface loss, each from its own strip's last position (R115). -/
theorem loss_owners {u : Ownership} (h : u.Agree) (x : Target) :
    (allStrips.foldl Ownership.touchFall u).owners[x] =
      match u.owners[x] with
      | .operator i => u.released u.strips[i].lastPosition
      | o => o := by
  rw [falls_untouched, (falls_spec untouchedWords allStrips h).2.1 x]
  cases u.owners[x] with
  | operator i => exact if_pos ⟨mem_allStrips i, wordTouch_untouched i⟩
  | _ => rfl

/-- The state after a surface loss that is due (R115). -/
def surfaceLost (s : State) : State :=
  latch .surfaceLost
    { s with own := allStrips.foldl Ownership.touchFall s.own, surface := { s.surface with silence := none } }

theorem surfaceLost_own (s : State) :
    (latch .stateChanged (surfaceLost s)).own = allStrips.foldl Ownership.touchFall s.own := by
  rw [latch_own, surfaceLost, latch_own]

/-- A surface loss makes the surface absent, which changes the present-state set (R115, R177). -/
theorem surfaceLoss_next (hr : s.inReset = false) (h : s.surface.silence = some 0) :
    exec .surfaceLoss s = .next (latch .stateChanged (surfaceLost s)) := by
  have hact : actSurfaceLoss s = surfaceLost s := if_pos (surfaceLossDue_iff.mpr h)
  change event actSurfaceLoss s = _
  rw [event_run hr, hact, noteChanges_of_ne]
  intro hsame
  have hsurface : s.surface.silence.isSome = false := congrArg Present.surface hsame
  rw [h] at hsurface
  cases hsurface

theorem actStuckTouchExpiry_due {i : Strip} {x : Target} {k : StuckTimer}
    (h : s.own.strips[i].state = .touched x (some k)) (hdue : s.own.stuckTime * 1000 ≤ k.elapsed) :
    actStuckTouchExpiry i s = latch .touchStuck
      { s with own := (s.own.letGo x s.own.strips[i].lastPosition).blockStrip i } := by
  unfold actStuckTouchExpiry
  rw [stuckDue_iff.mpr ⟨x, k, h, hdue⟩, h]

/-- Settles O37, expiry by expiry. -/
theorem surfaceTimersExpire : Obligations.SurfaceTimersExpire := by
  intro s hr
  refine ⟨fun hsilence hagree => ?loss, fun i x k hstate hdue => ?stuck, fun x release time elapsed ho hdue => ?glide⟩
  case loss =>
    refine ⟨_, surfaceLoss_next hr hsilence, rfl, rfl, ?_⟩
    rw [surfaceLost_own]
    exact ⟨loss_strips hagree.1, loss_owners hagree.1⟩
  case stuck => exact event_quiet hr (actStuckTouchExpiry_due hstate hdue) rfl
  case glide => exact event_quiet hr (if_pos (glideDue_iff.mpr ⟨release, time, elapsed, ho, hdue⟩)) rfl

end SurfaceExpiries

end Sys2Proof.Machine

/-! Orders on a target (R66, R119–R121, R124) and on the surface's own values (R106, R107, R114, R123). -/

namespace Sys2Proof.Machine

open Sys2Proof.Safety

/-! ### PARK, UNPARK and BASE SET -/

section TargetOrders

variable {p : List Byte} {s : State} {t : Target}

theorem targetOf_eq_some {k : Nat} : targetOf k = some t ↔ k = t.val + 1 :=
  oneBased_eq_some

theorem targetOf_eq_none {k : Nat} : targetOf k = none ↔ k = 0 ∨ 80 < k :=
  oneBased_eq_none

theorem parkBody_range (h : targetOf (byteAt p 0) = none) : parkBody p s = .refuse .range [] := by
  unfold parkBody
  rw [h]

theorem parkBody_done (h : targetOf (byteAt p 0) = some t) : parkBody p s =
    .done (nat16 (clampPosition (wordAt p 1)))
      (parkTarget t (clampPosition (wordAt p 1)) (clampTenths (wordAt p 3)) s) := by
  unfold parkBody
  rw [h]

theorem parkTarget_of_operator {position time : Nat} {i : Strip} (h : s.own.owners[t] = .operator i) :
    parkTarget t position time s = { s with
      own := (s.own.blockStrip i).setOwner t (.parked position (effective s t) (time * 100) 0) } := by
  unfold parkTarget
  rw [h]

theorem parkTarget_of_not_operator {position time : Nat} (h : ∀ i, s.own.owners[t] ≠ .operator i) :
    parkTarget t position time s =
      { s with own := s.own.setOwner t (.parked position (effective s t) (time * 100) 0) } := by
  unfold parkTarget
  cases ho : s.own.owners[t] with
  | operator i => exact absurd ho (h i)
  | _ => rfl

theorem unparkBody_range (h : targetOf (byteAt p 0) = none) : unparkBody p s = .refuse .range [] := by
  unfold unparkBody
  rw [h]

theorem unparkBody_done {position start duration elapsed : Nat} (h : targetOf (byteAt p 0) = some t)
    (ho : s.own.owners[t] = .parked position start duration elapsed) : unparkBody p s =
      .done [] { s with own := s.own.letGo t (rampValue position start duration elapsed) } := by
  unfold unparkBody
  rw [h]
  dsimp only
  rw [ho]

theorem unparkBody_notParked (h : targetOf (byteAt p 0) = some t) (ho : ∀ a b c d, s.own.owners[t] ≠ .parked a b c d) :
    unparkBody p s = .refuse .notParked [] := by
  unfold unparkBody
  rw [h]
  dsimp only
  cases hu : s.own.owners[t] with
  | parked a b c d => exact absurd hu (ho a b c d)
  | _ => rfl

theorem baseSetBody_range (h : targetOf (byteAt p 0) = none) : baseSetBody p s = .refuse .range [] := by
  unfold baseSetBody
  rw [h]

theorem baseSetBody_done (h : targetOf (byteAt p 0) = some t) : baseSetBody p s =
    .done (nat16 (clampPosition (wordAt p 1)))
      { s with fade := { s.fade with base := s.fade.base.set t (clampPosition (wordAt p 1)) } } := by
  unfold baseSetBody
  rw [h]

theorem targetReadBody_range (h : targetOf (byteAt p 0) = none) : targetReadBody p s = .refuse .range [] := by
  unfold targetReadBody
  rw [h]

theorem targetReadBody_done (h : targetOf (byteAt p 0) = some t) :
    targetReadBody p s = .done (targetReadBytes s t) s := by
  unfold targetReadBody
  rw [h]

/-- Settles O38, order by order. -/
theorem targetOrdersTaken : Obligations.TargetOrdersTaken := by
  refine ⟨fun f s x hm hx => ⟨fun hl => ⟨fun i ho => ?parkOwned, fun ho => ?parkFree⟩,
    fun hl => ⟨fun position start duration elapsed ho => ?unpark, fun ho => ?notParked⟩⟩,
    fun f s hl hm => ⟨fun hrange => ?baseRange, fun t ht => ?base⟩,
    fun f s hrange => ⟨fun hm hl => ?parkRange, fun hm hl => ?unparkRange, fun hl => ?readRange⟩⟩
  case parkOwned =>
    refine takenAs_showOrder rfl rfl hl (by decide) hm ((parkBody_done (targetOf_eq_some.mpr hx)).trans ?_)
    rw [parkTarget_of_operator ho]
    rfl
  case parkFree =>
    refine takenAs_showOrder rfl rfl hl (by decide) hm ((parkBody_done (targetOf_eq_some.mpr hx)).trans ?_)
    rw [parkTarget_of_not_operator ho]
    rfl
  case unpark =>
    exact takenAs_showOrder rfl rfl hl (by decide) hm (unparkBody_done (targetOf_eq_some.mpr hx) ho)
  case notParked =>
    exact refusedAs_showOrder rfl rfl hl (by decide) hm (by decide)
      (unparkBody_notParked (targetOf_eq_some.mpr hx) ho)
  case baseRange =>
    exact refusedAs_showOrder rfl rfl hl (by decide) hm (by decide) (baseSetBody_range (targetOf_eq_none.mpr hrange))
  case base => exact takenAs_showOrder rfl rfl hl (by decide) hm (baseSetBody_done (targetOf_eq_some.mpr ht))
  case parkRange =>
    exact refusedAs_showOrder rfl rfl hl (by decide) hm (by decide) (parkBody_range (targetOf_eq_none.mpr hrange))
  case unparkRange =>
    exact refusedAs_showOrder rfl rfl hl (by decide) hm (by decide) (unparkBody_range (targetOf_eq_none.mpr hrange))
  case readRange =>
    exact readRefusedAs_readOrder rfl rfl hl (by decide) (by decide)
      (targetReadBody_range (targetOf_eq_none.mpr hrange))

/-- What TARGET READ adds for a channel and no other target (R124). -/
theorem channelBytes_eq (s : State) (x : Target) : channelBytes s x = if h : x.val < 64 then
    nat16 s.mute.ramps[x.val].attenuation ++ [s.mute.ramps[x.val].code] ++ wordBytes (channelCode s ⟨x.val, h⟩).word
      else [] := by
  unfold channelBytes targetChannel
  by_cases h : x.val < 64
  · rw [dif_pos h, dif_pos h]
    rfl
  · rw [dif_neg h, dif_neg h]

/-- Settles O39, from the order's one answer. -/
theorem targetReadReports : Obligations.TargetReadReports := by
  intro f s x hp
  have hbyte : byteAt f.payload 0 = x.val + 1 := by
    rw [hp]
    exact nat8_toNat (by omega)
  refine readAs_readOrder rfl rfl (congrArg List.length hp) (by decide)
    ((targetReadBody_done (targetOf_eq_some.mpr hbyte)).trans ?_)
  rw [← channelBytes_eq]
  rfl

end TargetOrders

/-! ### BANK ASSIGN, PAGE SELECT and SURFACE CONFIG -/

section SurfaceOrders

variable {p : List Byte} {s : State} {page : Fin 4} {i : Strip} {entry : Option Target}

theorem stripOf_eq_some {k : Nat} : stripOf k = some i ↔ k = i.val + 1 :=
  oneBased_eq_some

theorem stripOf_eq_none {k : Nat} : stripOf k = none ↔ k = 0 ∨ 16 < k :=
  oneBased_eq_none

theorem bankAssignBody_range
    (h : pageOf (byteAt p 0) = none ∨ stripOf (byteAt p 1) = none ∨ bankTarget (byteAt p 2) = none) :
    bankAssignBody p s = .refuse .range [] := by
  unfold bankAssignBody
  split
  next hpage hstrip htarget => rcases h with h | h | h <;> simp_all
  next => rfl

theorem bankAssignBody_read (hpage : pageOf (byteAt p 0) = some page) (hstrip : stripOf (byteAt p 1) = some i)
    (hentry : bankTarget (byteAt p 2) = some entry) : bankAssignBody p s =
      if entry.any (onOtherStrip s.own.bank page i) then .refuse .duplicate []
      else .done [] { s with own := { s.own with bank := s.own.bank.set page (s.own.bank[page].set i entry) } } := by
  unfold bankAssignBody
  rw [hpage, hstrip, hentry]

theorem any_onOtherStrip_iff {bank : Vector (Vector (Option Target) 16) 4} :
    entry.any (onOtherStrip bank page i) = true ↔ ∃ x j, entry = some x ∧ j ≠ i ∧ bank[page][j] = some x := by
  cases entry with
  | none => exact iff_of_false nofun nofun
  | some x =>
    rw [Option.any_some, onOtherStrip_iff]
    exact ⟨fun ⟨j, hj⟩ => ⟨x, j, rfl, hj⟩, fun ⟨_, j, hx, hj⟩ => ⟨j, Option.some.inj hx ▸ hj⟩⟩

theorem pageSelectBody_range (h : pageOf (byteAt p 0) = none) : pageSelectBody p s = .refuse .range [] := by
  unfold pageSelectBody
  rw [h]

theorem pageSelectBody_done (h : pageOf (byteAt p 0) = some page) :
    pageSelectBody p s = .done [nat8 page.val] { s with own := { s.own with page := page } } := by
  unfold pageSelectBody
  rw [h]

/-- A strip's record after a change of the stuck time: its stuck timer stopped, started or left, and no more (R114). -/
theorem retime_eq (r : StripRecord) (old new : Nat) : r.retime old new =
    match r.state with
    | .touched x k =>
      { r with state := .touched x (if new = 0 then none else if old = 0 then some ⟨r.lastPosition, 0⟩ else k) }
    | .idle => r
    | .blocked => r := by
  unfold StripRecord.retime
  cases r.state with
  | touched x k =>
    dsimp only
    by_cases hnew : new = 0
    · rw [if_pos hnew, if_pos hnew]
    · rw [if_neg hnew, if_neg hnew]
      by_cases hold : old = 0
      · rw [if_pos hold, if_pos hold, startStuck, if_neg hnew]
      · rw [if_neg hold, if_neg hold]
  | _ => rfl

theorem surfaceConfigBody_eq (p : List Byte) (s : State) : surfaceConfigBody p s =
    .done (nat16 (clampStuck (wordAt p 0)) ++ nat16 (min 5000 (wordAt p 2))) { s with own := { s.own with
      stuckTime := clampStuck (wordAt p 0), glideTime := min 5000 (wordAt p 2)
      strips := Vector.ofFn fun i : Strip => s.own.strips[i].retime s.own.stuckTime (clampStuck (wordAt p 0)) } } := rfl

/-- Settles O40, order by order. -/
theorem surfaceOrdersTaken : Obligations.SurfaceOrdersTaken := by
  intro f s hm
  refine ⟨fun hl => ⟨fun hrange => ?range, fun page i entry hpage hstrip hentry => ⟨fun htwice => ?twice,
    fun honce => ?assign⟩⟩, fun hl => ⟨fun hrange => ?pageRange, fun page hpage => ?page⟩, fun hl => ?config⟩
  case range =>
    refine refusedAs_showOrder rfl rfl hl (by decide) hm (by decide) (bankAssignBody_range ?_)
    rw [pageOf_eq_none, stripOf_eq_none, bankTarget_eq_none]
    omega
  case twice =>
    refine refusedAs_showOrder rfl rfl hl (by decide) hm (by decide)
      ((bankAssignBody_read (pageOf_eq_some.mpr hpage) (stripOf_eq_some.mpr hstrip) hentry).trans ?_)
    exact if_pos (any_onOtherStrip_iff.mpr htwice)
  case assign =>
    refine takenAs_showOrder rfl rfl hl (by decide) hm
      ((bankAssignBody_read (pageOf_eq_some.mpr hpage) (stripOf_eq_some.mpr hstrip) hentry).trans ?_)
    exact if_neg fun htwice => by
      obtain ⟨x, j, hx, hj, hbank⟩ := any_onOtherStrip_iff.mp htwice
      exact honce x j hx hj hbank
  case pageRange =>
    exact refusedAs_showOrder rfl rfl hl (by decide) hm (by decide)
      (pageSelectBody_range (pageOf_eq_none.mpr hrange))
  case page => exact takenAs_showOrder rfl rfl hl (by decide) hm (pageSelectBody_done (pageOf_eq_some.mpr hpage))
  case config =>
    refine takenAs_showOrder rfl rfl hl (by decide) hm ((surfaceConfigBody_eq _ _).trans ?_)
    simp only [retime_eq]
    rfl

end SurfaceOrders

end Sys2Proof.Machine

/-! Groups, mutes and show-stop (R126–R139, R141). -/

namespace Sys2Proof.Machine

open Sys2Proof.Safety

/-! ### GROUP ASSIGN and MUTE CONFIG (R126, R141) -/

section Groups

variable {p : List Byte} {s : State} {c : Channel} {groups : List Group}

theorem channelOf_eq_some {k : Nat} : channelOf k = some c ↔ k = c.val + 1 :=
  oneBased_eq_some

theorem channelOf_eq_none {k : Nat} : channelOf k = none ↔ k = 0 ∨ 64 < k :=
  oneBased_eq_none

theorem groupOf_eq_none {k : Nat} : groupOf k = none ↔ k = 0 ∨ 16 < k :=
  oneBased_eq_none

theorem hasRepeat_iff : hasRepeat groups = true ↔ ¬groups.Nodup := by
  induction groups with
  | nil => exact iff_of_false nofun fun h => h List.nodup_nil
  | cons g rest ih =>
    unfold hasRepeat
    rw [Bool.or_eq_true, ih, List.contains_iff_mem, List.nodup_cons, Decidable.not_and_iff_not_or_not,
      Decidable.not_not]

/-- The groups of a list, stored each once in ascending order, are the list's own where it has none twice. -/
theorem ascendingGroups_perm (h : groups.Nodup) : (ascendingGroups groups).Perm groups :=
  (List.perm_ext_iff_of_nodup ((List.nodup_finRange 16).filter _) h).mpr fun _ => mem_ascendingGroups

/-- The groups an order gives, read from their codes. -/
theorem groups_read {n : Nat} {read : Nat → Nat}
    (h : groups.map (fun g => g.val + 1) = (List.range n).map read) :
    allPresent ((List.range n).map fun k => groupOf (read k)) = some groups := by
  have hread : (List.range n).map (fun k => groupOf (read k)) = ((List.range n).map read).map groupOf := by
    rw [List.map_map]
    rfl
  rw [allPresent_eq_some, hread, ← h, List.map_map]
  exact List.map_congr_left fun g _ => oneBased_eq_some.mpr rfl

theorem groupAssignBody_noChannel (h : channelOf (byteAt p 0) = none) : groupAssignBody p s = .refuse .range [] := by
  unfold groupAssignBody
  rw [h]

theorem groupAssignBody_tooMany (h : 3 < byteAt p 1) : groupAssignBody p s = .refuse .range [] := by
  unfold groupAssignBody
  split
  · rfl
  · exact if_pos h

theorem groupAssignBody_noGroup (hc : channelOf (byteAt p 0) = some c) (hcount : byteAt p 1 ≤ 3)
    (h : ∃ k < byteAt p 1, groupOf (byteAt p (2 + k)) = none) : groupAssignBody p s = .refuse .range [] := by
  unfold groupAssignBody
  rw [hc]
  dsimp only
  rw [if_neg (Nat.not_lt.mpr hcount), allPresent_range_eq_none.mpr h]

theorem groupAssignBody_read (hc : channelOf (byteAt p 0) = some c) (hcount : byteAt p 1 ≤ 3)
    (h : groups.map (fun g => g.val + 1) = (List.range (byteAt p 1)).map fun k => byteAt p (2 + k)) :
    groupAssignBody p s = if hasRepeat groups then .refuse .duplicate []
      else .done (groupBytes (ascendingGroups groups))
        { s with mute := { s.mute with groups := s.mute.groups.set c (ascendingGroups groups) } } := by
  unfold groupAssignBody
  rw [hc]
  dsimp only
  rw [if_neg (Nat.not_lt.mpr hcount), groups_read h]

/-- Settles O41: what each reading of the payload comes to. -/
theorem groupsAndTimesSet : Obligations.GroupsAndTimesSet := by
  intro f s hm
  refine ⟨fun hl => ⟨fun hrange => ?range, fun c hc hcount hgroup => ?noGroup,
    fun c groups hc hcount hread => ⟨fun htwice => ?twice, fun honce => ?stored⟩⟩, fun hl => ?times⟩
  case range =>
    refine refusedAs_showOrder rfl rfl hl (by decide) hm (by decide) ?_
    by_cases hcount : 3 < byteAt f.payload 1
    · exact groupAssignBody_tooMany hcount
    · exact groupAssignBody_noChannel (channelOf_eq_none.mpr (by omega))
  case noGroup =>
    simp only [← groupOf_eq_none] at hgroup
    exact refusedAs_showOrder rfl rfl hl (by decide) hm (by decide)
      (groupAssignBody_noGroup (channelOf_eq_some.mpr hc) hcount hgroup)
  case twice =>
    exact refusedAs_showOrder rfl rfl hl (by decide) hm (by decide)
      ((groupAssignBody_read (channelOf_eq_some.mpr hc) hcount hread).trans (if_pos (hasRepeat_iff.mpr htwice)))
  case stored =>
    exact ⟨ascendingGroups groups, ascendingGroups_perm honce, ascendingGroups_pairwise groups,
      takenAs_showOrder rfl rfl hl (by decide) hm
        ((groupAssignBody_read (channelOf_eq_some.mpr hc) hcount hread).trans
          (if_neg fun htwice => hasRepeat_iff.mp htwice honce))⟩
  case times => exact takenAs_showOrder rfl rfl hl (by decide) hm rfl

end Groups

/-! ### MUTE SET, MUTE GROUP ASSIGN and EXEMPT SET (R127, R128, R130) -/

section Mutes

variable {p : List Byte} {s : State} {c : Channel}

theorem muteSetBody_range (h : subjectOf (byteAt p 0) = none ∨ muteStateOf (byteAt p 1) = none) :
    muteSetBody p s = .refuse .range [] := by
  unfold muteSetBody
  split
  next hsubject hstate => rcases h with h | h <;> simp_all
  next => rfl

theorem muteSetBody_done {subject : MuteSubject} {state : MuteState} (hsubject : subjectOf (byteAt p 0) = some subject)
    (hstate : muteStateOf (byteAt p 1) = some state) : muteSetBody p s =
      .done [state.code] { s with mute := reevaluate s.mute (s.mute.setSubject subject state) } := by
  unfold muteSetBody
  rw [hsubject, hstate]

theorem muteGroupAssignBody_range (h : channelOf (byteAt p 0) = none) :
    muteGroupAssignBody p s = .refuse .range [] := by
  unfold muteGroupAssignBody
  rw [h]

theorem muteGroupAssignBody_done (h : channelOf (byteAt p 0) = some c) : muteGroupAssignBody p s =
    .done [p.getD 1 0] { s with
      mute := reevaluate s.mute { s.mute with muteSets := s.mute.muteSets.set c (p.getD 1 0) } } := by
  unfold muteGroupAssignBody
  rw [h]

theorem exemptSetBody_range (h : channelOf (byteAt p 0) = none ∨ flagOf (byteAt p 1) = none) :
    exemptSetBody p s = .refuse .range [] := by
  unfold exemptSetBody
  split
  next hchannel hflag => rcases h with h | h <;> simp_all
  next => rfl

theorem exemptSetBody_done {member : Bool} (hchannel : channelOf (byteAt p 0) = some c)
    (hflag : flagOf (byteAt p 1) = some member) : exemptSetBody p s =
      .done [flagByte member] { s with
        mute := reevaluate s.mute { s.mute with exempt := s.mute.exempt.set c member } } := by
  unfold exemptSetBody
  rw [hchannel, hflag]

theorem flagByte_of_le {n : Nat} (h : n ≤ 1) : flagByte (n == 1) = nat8 n := by
  match n, h with
  | 0, _ => rfl
  | 1, _ => rfl

/-- Settles O42, order by order. -/
theorem muteOrdersTaken : Obligations.MuteOrdersTaken := by
  intro f s hl hm
  refine ⟨fun subject state hsubject hstate => ?set, fun hrange => ?setRange, fun hrange => ?groupRange,
    fun hrange => ?exemptRange, fun c hc => ⟨fun set hset => ?group, fun hflag => ?exempt⟩⟩
  case set =>
    refine takenAs_showOrder rfl rfl hl (by decide) hm ((muteSetBody_done hsubject hstate).trans ?_)
    cases subject <;> rfl
  case setRange =>
    refine refusedAs_showOrder rfl rfl hl (by decide) hm (by decide) (muteSetBody_range ?_)
    rw [subjectOf_eq_none, muteStateOf_eq_none, or_assoc]
    exact hrange
  case groupRange =>
    exact refusedAs_showOrder rfl rfl hl (by decide) hm (by decide)
      (muteGroupAssignBody_range (channelOf_eq_none.mpr hrange))
  case exemptRange =>
    refine refusedAs_showOrder rfl rfl hl (by decide) hm (by decide) (exemptSetBody_range ?_)
    rw [channelOf_eq_none, flagOf_eq_none, or_assoc]
    exact hrange
  case group =>
    have hbyte : f.payload.getD 1 0 = set := by rw [List.getD_eq_getElem?_getD, hset, Option.getD_some]
    subst hbyte
    exact takenAs_showOrder rfl rfl hl (by decide) hm (muteGroupAssignBody_done (channelOf_eq_some.mpr hc))
  case exempt =>
    rw [← flagByte_of_le hflag]
    exact takenAs_showOrder rfl rfl hl (by decide) hm
      (exemptSetBody_done (channelOf_eq_some.mpr hc) (flagOf_of_le hflag))

end Mutes

/-! ### Ramps (R134, R136–R139) -/

section Ramps

variable {before after u : MuteUnit} {c : Channel}

theorem stopCounts_iff : u.stopCounts c = true ↔ u.stopActive = true ∧ u.exempt[c] = false := by
  unfold MuteUnit.stopCounts
  rw [Bool.and_eq_true, Bool.not_eq_true']

theorem isMute_iff {m : MuteState} : m.isMute = true ↔ m = .mute := by
  cases m <;> decide

theorem groupMuted_iff :
    u.groupMuted c = true ↔ ∃ g : MuteGroup, u.muteSets[c].getLsbD g.val = true ∧ u.groupStates[g] = .mute := by
  simp [MuteUnit.groupMuted, isMute_iff]

theorem request_iff : u.request c = true ↔ u.flags[c] = true ∨ (u.stopActive = true ∧ u.exempt[c] = false)
    ∨ ∃ g : MuteGroup, u.muteSets[c].getLsbD g.val = true ∧ u.groupStates[g] = .mute := by
  unfold MuteUnit.request
  rw [Bool.or_eq_true, Bool.or_eq_true, stopCounts_iff, groupMuted_iff, or_assoc, or_comm (a := ∃ _, _)]

theorem rampAfter_mutes (hb : before.request c = false) (ha : after.request c = true) :
    rampAfter before after c = if after.stopActive = true ∧ after.exempt[c] = false
      then startMuting after.ramps[c].attenuation after.times.stop true
      else startMuting after.ramps[c].attenuation after.times.mute false := by
  unfold rampAfter evaluatedRamp
  rw [hb, ha]
  exact ite_congr (propext stopCounts_iff) (fun _ => rfl) (fun _ => rfl)

theorem rampAfter_opens (hb : before.request c = true) (ha : after.request c = false) :
    rampAfter before after c = startOpening after.ramps[c].attenuation after.times.unmute := by
  unfold rampAfter evaluatedRamp
  rw [hb, ha]

theorem rampAfter_unmuted (hb : before.request c = false) (ha : after.request c = false) :
    rampAfter before after c = after.ramps[c] := by
  unfold rampAfter evaluatedRamp
  rw [hb, ha]

/-- A channel muting at its own rate restarts at the stop rate once show-stop counts for it (R137). -/
theorem rampAfter_restarts {start rate elapsed : Nat} (hb : before.request c = true) (ha : after.request c = true)
    (hr : after.ramps[c] = .muting start rate false elapsed) (hbefore : before.stopCounts c = false)
    (hafter : after.stopCounts c = true) :
    rampAfter before after c = startMuting after.ramps[c].attenuation after.times.stop true := by
  unfold rampAfter evaluatedRamp
  rw [hb, ha, hbefore, hafter, hr]
  rfl

/-- Any other ramp of a channel whose request stays runs on. -/
theorem rampAfter_runsOn (hb : before.request c = true) (ha : after.request c = true)
    (h : (∀ start rate elapsed, after.ramps[c] ≠ .muting start rate false elapsed)
      ∨ before.stopCounts c = true ∨ after.stopCounts c = false) :
    rampAfter before after c = after.ramps[c] := by
  unfold rampAfter evaluatedRamp
  rw [hb, ha]
  dsimp only
  split
  next start rate elapsed hr =>
    refine if_neg ?_
    rw [Bool.and_eq_true, Bool.not_eq_true']
    rintro ⟨hafter, hbefore⟩
    rcases h with h | h | h
    · exact h start rate elapsed hr
    · exact absurd (h.symm.trans hbefore) (by decide)
    · exact absurd (hafter.symm.trans h) (by decide)
  all_goals rfl

theorem actRampArrival_arrived {s : State} (h : s.mute.ramps[c].arrived = true) : actRampArrival c s =
    { s with mute := { s.mute with ramps := s.mute.ramps.set c s.mute.ramps[c].ended } } :=
  if_pos h

/-- Settles O43, from one lemma for each turn of a request. -/
theorem rampsTurnAndArrive : Obligations.RampsTurnAndArrive := by
  refine ⟨fun before after c => ⟨rampAfter_mutes, rampAfter_opens, rampAfter_unmuted, fun hb ha =>
    ⟨fun _ _ _ hr hbefore hafter => rampAfter_restarts hb ha hr hbefore hafter, rampAfter_runsOn hb ha⟩, request_iff⟩,
    fun s c hr => ⟨fun start rate mark elapsed hramp hstart hend => ?muting,
      fun start rate elapsed hramp hend => ?opening⟩⟩
  case muting =>
    have harrived : s.mute.ramps[c].arrived = true := by
      rw [hramp]
      exact decide_eq_true hend
    refine ⟨event_quiet hr ((actRampArrival_arrived harrived).trans (by rw [hramp]; rfl)) rfl, ?_⟩
    rw [hramp]
    exact Nat.min_eq_left (by omega)
  case opening =>
    have harrived : s.mute.ramps[c].arrived = true := by
      rw [hramp]
      exact decide_eq_true hend
    refine ⟨event_quiet hr ((actRampArrival_arrived harrived).trans (by rw [hramp]; rfl)) rfl, ?_⟩
    rw [hramp]
    exact Nat.sub_eq_zero_of_le hend

end Ramps

/-! ### Show-stop (R131–R133, R61) -/

section Stop

variable {s : State} {flag : Bool} {line : Level} {change : MuteUnit → MuteUnit}

/-- The mute unit's two stop reasons take these values (R131, R132). -/
def withStop (flag : Bool) (line : Level) (u : MuteUnit) : MuteUnit :=
  { u with stopFlag := flag, stopLine := line }

theorem withStop_active (flag : Bool) (line : Level) (u : MuteUnit) :
    (withStop flag line u).stopActive = (flag || line == .low) := by
  unfold withStop MuteUnit.stopActive
  cases line <;> rfl

/-- The state once the stop reasons take these values, every ramp following its request: show-stop becoming active
acts as a hold (R61, R131–R134). -/
def stopped (flag : Bool) (line : Level) (s : State) : State :=
  if s.mute.stopActive = false ∧ (flag || line == .low) = true then
    actHold { s with mute := reevaluate s.mute (withStop flag line s.mute) }
  else { s with mute := reevaluate s.mute (withStop flag line s.mute) }

theorem changeStop_stopped (h : change s.mute = withStop flag line s.mute) :
    changeStop change s = stopped flag line s := by
  rw [changeStop_eq, h, withStop_active]
  rfl

theorem stopped_mute (flag : Bool) (line : Level) (s : State) :
    (stopped flag line s).mute = reevaluate s.mute (withStop flag line s.mute) := by
  unfold stopped
  split
  · rw [actHold_frame]
  · rfl

theorem setStopFlag_stopped (hline : line = s.mute.stopLine) : setStopFlag flag s = stopped flag line s := by
  subst hline
  exact changeStop_stopped rfl

theorem setStopLine_stopped (hflag : flag = s.mute.stopFlag) : setStopLine line s = stopped flag line s := by
  subst hflag
  exact changeStop_stopped rfl

theorem stopBytes_stopped (flag : Bool) (line : Level) (s : State) : stopBytes (stopped flag line s) =
    [if flag then 1 else 0, if flag || line == .low then 1 else 0] := by
  unfold stopBytes
  rw [stopped_mute, reevaluate_stopActive, withStop_active]
  rfl

/-- Settles O44, by the one change that all four commands make. -/
theorem showStop : Obligations.ShowStop := by
  intro s flag line
  refine ⟨fun f hp hline hflag => ?set, fun f hp hline hflag => ?release, fun hr hflag hline => ?fall,
    fun hr hflag hline => ?rise⟩
  case set =>
    refine takenAs_openOrder rfl rfl (List.length_eq_zero_iff.mpr hp) (by decide) ?_
    have hact : setStopFlag true s = stopped flag line s := hflag ▸ setStopFlag_stopped hline
    unfold stopSetBody
    rw [hact, stopBytes_stopped]
    rfl
  case release =>
    refine takenAs_openOrder rfl rfl (List.length_eq_zero_iff.mpr hp) (by decide) ?_
    have hact : setStopFlag false s = stopped flag line s := hflag ▸ setStopFlag_stopped hline
    unfold stopReleaseBody
    rw [hact, stopBytes_stopped]
    rfl
  case fall =>
    have hact : setStopLine .low s = stopped flag line s := hline ▸ setStopLine_stopped hflag
    exact (event_run hr _).trans (by rw [hact]; rfl)
  case rise =>
    have hact : setStopLine .high s = stopped flag line s := hline ▸ setStopLine_stopped hflag
    exact (event_run hr _).trans (by rw [hact]; rfl)

end Stop

end Sys2Proof.Machine

/-! The output: its slot map (R143–R147), its timer and its frames (R149–R152). -/

namespace Sys2Proof.Machine

open Sys2Proof.Safety

/-! ### The slot map (R144, R145) -/

section SlotMap

variable {ws : Vector (Option Window) 8} {c : Channel} {w : Window}

theorem mappingWindow_eq (ws : Vector (Option Window) 8) (c : Channel) :
    mappingWindow ws c = ws.toList.findSome? (Option.filter (·.covers c)) := by
  unfold mappingWindow
  congr 1
  funext o
  cases o <;> rfl

theorem slotOf_of_mapping (h : mappingWindow ws c = some w) : slotOf ws c = some (w.base + (c.val + 1 - w.first)) := by
  unfold slotOf
  rw [h]
  rfl

theorem slotOf_of_unmapped (h : mappingWindow ws c = none) : slotOf ws c = none := by
  unfold slotOf
  rw [h]
  rfl

theorem channelLocked_of_mapping (h : mappingWindow ws c = some w) : channelLocked ws c = w.lock := by
  unfold channelLocked
  rw [h]

theorem channelLocked_of_unmapped (h : mappingWindow ws c = none) : channelLocked ws c = false := by
  unfold channelLocked
  rw [h]

/-- An entry of the window table that is no enabled window over the channel. -/
theorem filter_covers_eq_none {o : Option Window}
    (h : ∀ v, o = some v → ¬(v.first ≤ c.val + 1 ∧ c.val + 1 ≤ v.last)) : o.filter (·.covers c) = none := by
  cases o with
  | none => rfl
  | some v => exact if_neg fun hcovers => h v rfl ((covers_iff v c).mp hcovers)

/-- The lowest-numbered enabled window that covers a channel maps it. -/
theorem mappingWindow_of_lowest {n : Fin 8} (hn : ws[n] = some w) (hcovers : w.covers c = true)
    (hlower : ∀ k : Fin 8, k < n → ∀ v, ws[k] = some v → ¬(v.first ≤ c.val + 1 ∧ c.val + 1 ≤ v.last)) :
    mappingWindow ws c = some w := by
  have hlength : ws.toList.length = 8 := Vector.length_toList
  rw [mappingWindow_eq, List.findSome?_eq_some_iff]
  refine ⟨ws.toList.take n, some w, ws.toList.drop (n + 1), ?_, if_pos hcovers, fun o ho => ?_⟩
  · rw [← hn, Fin.getElem_fin, ← Vector.getElem_toList (by omega), ← List.drop_eq_getElem_cons, List.take_append_drop]
  · obtain ⟨k, hk, rfl⟩ := List.mem_take_iff_getElem.mp ho
    have hkn : k < n.val := by omega
    refine filter_covers_eq_none fun v hv => hlower ⟨k, by omega⟩ hkn v ?_
    rw [← hv, Fin.getElem_fin, Vector.getElem_toList]

theorem mappingWindow_of_none
    (h : ∀ (n : Fin 8) (w : Window), ws[n] = some w → ¬(w.first ≤ c.val + 1 ∧ c.val + 1 ≤ w.last)) :
    mappingWindow ws c = none := by
  rw [mappingWindow_eq, List.findSome?_eq_none_iff]
  intro o ho
  obtain ⟨n, hn, hget⟩ := Vector.mem_iff_getElem.mp (Vector.mem_toList_iff.mp ho)
  exact filter_covers_eq_none fun v hv => h ⟨n, hn⟩ v (hget.trans hv)

theorem clashSlot_eq_some {slot : Nat} (hslot : slot < 128) (htwice : FedTwice ws slot)
    (hlower : ∀ k < slot, ¬FedTwice ws k) : clashSlot ws = some slot := by
  unfold clashSlot
  rw [List.find?_range_eq_some]
  refine ⟨decide_eq_true (one_lt_feeders_iff.mpr htwice), List.mem_range.mpr hslot, fun k hk => ?_⟩
  rw [decide_eq_false fun hfed => hlower k hk (one_lt_feeders_iff.mp hfed)]
  rfl

end SlotMap

/-! ### WINDOW SET and WINDOW CLEAR (R146, R147) -/

section WindowOrders

variable {p : List Byte} {s : State} {ws : Vector (Option Window) 8} {n : Fin 8} {w : Window}

theorem changeWindows_free (h : clashSlot ws = none) :
    changeWindows ws s = .done (mapBytes ws) { s with out := { s.out with windows := ws } } := by
  unfold changeWindows
  rw [h]

theorem changeWindows_clash {slot : Nat} (h : clashSlot ws = some slot) :
    changeWindows ws s = .refuse .slotClash [nat8 slot] := by
  unfold changeWindows
  rw [h]

theorem windowFields_of_legal (h : WindowLegal w) (hfirst : byteAt p 1 = w.first) (hlast : byteAt p 2 = w.last)
    (hbase : byteAt p 3 = w.base) (hlock : byteAt p 4 = if w.lock then 1 else 0) : windowFields p = some w := by
  obtain ⟨hlow, horder, hhigh, hslots⟩ := h
  have hf : channelOf (byteAt p 1) = some ⟨w.first - 1, by omega⟩ := channelOf_eq_some.mpr (by dsimp only; omega)
  have hl : channelOf (byteAt p 2) = some ⟨w.last - 1, by omega⟩ := channelOf_eq_some.mpr (by dsimp only; omega)
  have hk : flagOf (byteAt p 4) = some w.lock := by rw [hlock]; cases w.lock <;> rfl
  unfold windowFields
  rw [hf, hl, hk]
  dsimp only
  rw [if_neg (by omega), hfirst, hlast, hbase]

theorem windowFields_eq_none (h : byteAt p 1 = 0 ∨ 64 < byteAt p 1 ∨ byteAt p 2 = 0 ∨ 64 < byteAt p 2
    ∨ byteAt p 2 < byteAt p 1 ∨ 127 < byteAt p 3 ∨ 127 < byteAt p 3 + (byteAt p 2 - byteAt p 1) ∨ 1 < byteAt p 4) :
    windowFields p = none := by
  unfold windowFields
  split
  next hfirst hlast hlock =>
    have hf := channelOf_eq_some.mp hfirst
    have hl := channelOf_eq_some.mp hlast
    have hk : ¬1 < byteAt p 4 := fun hk => by rw [flagOf_of_lt hk] at hlock; cases hlock
    exact if_pos (by omega)
  next => rfl

theorem windowSetBody_range (h : windowOf (byteAt p 0) = none ∨ windowFields p = none) :
    windowSetBody p s = .refuse .range [] := by
  unfold windowSetBody
  split
  next hn hw => rcases h with h | h <;> simp_all
  next => rfl

theorem windowSetBody_read (hn : windowOf (byteAt p 0) = some n) (hw : windowFields p = some w) :
    windowSetBody p s = changeWindows (s.out.windows.set n (some w)) s := by
  unfold windowSetBody
  rw [hn, hw]

theorem windowClearBody_range (h : windowOf (byteAt p 0) = none) : windowClearBody p s = .refuse .range [] := by
  unfold windowClearBody
  rw [h]

theorem windowClearBody_read (hn : windowOf (byteAt p 0) = some n) :
    windowClearBody p s = changeWindows (s.out.windows.set n none) s := by
  unfold windowClearBody
  rw [hn]

/-- An order that changes the window table is taken unless a slot would be fed twice; the lowest such is answered. -/
theorem changeWindows_outcome {i : Instr} {kind : Byte} {f : OrderFrame} {length : Nat}
    {body : List Byte → State → OrderResult} (ho : i.order? = some (kind, f))
    (hs : orderSpec kind = some (showOrder length body)) (hl : f.payload.length = length) (h48 : length ≤ 48)
    (hm : s.sup.localMode = false) (hb : body f.payload s = changeWindows ws s) :
    ((∀ slot < 128, ¬FedTwice ws slot) →
        TakenAs i kind f s (mapBytes ws) { s with out := { s.out with windows := ws } })
      ∧ ∀ slot < 128, FedTwice ws slot → (∀ k < slot, ¬FedTwice ws k) →
        RefusedAs i kind f s .slotClash [nat8 slot] :=
  ⟨fun hfree => takenAs_showOrder ho hs hl h48 hm (hb.trans (changeWindows_free (clashSlot_eq_none.mpr hfree))),
    fun _ hslot htwice hlower => refusedAs_showOrder ho hs hl h48 hm (by decide)
      (hb.trans (changeWindows_clash (clashSlot_eq_some hslot htwice hlower)))⟩

/-- Settles O45, from the slot map and the one change of the window table. -/
theorem windowOrdersTaken : Obligations.WindowOrdersTaken := by
  refine ⟨fun ws c => ⟨fun n w hn hfirst hlast hlower => ?mapped, fun hnone => ?unmapped⟩,
    fun f s n entry hm hn => ⟨fun w hl hentry hlegal hfirst hlast hbase hlock => ?set, fun hl hentry => ?clear⟩⟩
  case mapped =>
    have hmapping := mappingWindow_of_lowest hn ((covers_iff w c).mpr ⟨hfirst, hlast⟩) hlower
    exact ⟨slotOf_of_mapping hmapping, channelLocked_of_mapping hmapping⟩
  case unmapped =>
    have hmapping := mappingWindow_of_none hnone
    exact ⟨slotOf_of_unmapped hmapping, channelLocked_of_unmapped hmapping⟩
  case set =>
    subst hentry
    exact changeWindows_outcome rfl rfl hl (by decide) hm
      (windowSetBody_read (windowOf_eq_some.mpr hn) (windowFields_of_legal hlegal hfirst hlast hbase hlock))
  case clear =>
    subst hentry
    exact changeWindows_outcome rfl rfl hl (by decide) hm (windowClearBody_read (windowOf_eq_some.mpr hn))

end WindowOrders

/-! ### OUTPUT CONFIG and the output timer (R149–R152) -/

section OutputTimer

variable {p : List Byte} {s : State} {c : Channel} {slot : Nat}

theorem periodOk_iff {n : Nat} : periodOk n = true ↔ n ∈ [1, 2, 5, 10] := by
  simp [periodOk, or_assoc]

theorem outputConfigBody_range (h : periodOk (byteAt p 0) = false ∨ flagOf (byteAt p 1) = none) :
    outputConfigBody p s = .refuse .range [] := by
  unfold outputConfigBody
  split
  next hp hk => rcases h with h | h <;> simp_all
  next => rfl

theorem outputConfigBody_done {enable : Bool} (hp : periodOk (byteAt p 0) = true)
    (hk : flagOf (byteAt p 1) = some enable) : outputConfigBody p s =
      .done [nat8 (byteAt p 0), flagByte enable] { s with out := { s.out with
        period := byteAt p 0, enabled := enable
        next := configuredTimer s.clock (byteAt p 0) enable s.out.next } } := by
  unfold outputConfigBody
  rw [hp, hk]

/-- A slot that one channel alone feeds carries its code. -/
theorem slotCode_fed (hc : slotOf s.out.windows c = some slot)
    (honly : ∀ d : Channel, slotOf s.out.windows d = some slot → d = c) : slotCode s slot = channelCode s c := by
  unfold slotCode
  cases hfind : allChannels.find? fun d => decide (slotOf s.out.windows d = some slot) with
  | none => exact absurd (decide_eq_true hc) (List.find?_eq_none.mp hfind c (List.mem_finRange c))
  | some d =>
    have hd := List.find?_some hfind
    rw [honly d (of_decide_eq_true hd)]

theorem slotCode_unfed (h : ∀ c : Channel, slotOf s.out.windows c ≠ some slot) : slotCode s slot = .off := by
  unfold slotCode
  rw [List.find?_eq_none.mpr fun c _ => by rw [decide_eq_false (h c)]; decide]

theorem gainFrame_codes (s : State) (slot : Fin 128) : (gainFrame s).codes[slot] = slotCode s slot.val := by
  simp [gainFrame]

/-- Settles O46, order by order and slot by slot. -/
theorem outputTimerRuns : Obligations.OutputTimerRuns := by
  refine ⟨fun s => ⟨fun f hm hl hperiod => ⟨fun hon => ?enable, fun hoff => ?disable⟩, fun hr hdue => ?expiry⟩,
    fun f s hm => ⟨fun hl hrange => ?setRange, fun hl hrange => ?clearRange, fun hl hrange => ?configRange⟩⟩
  case enable =>
    refine takenAs_showOrder rfl rfl hl (by decide) hm
      ((outputConfigBody_done (enable := true) (periodOk_iff.mpr hperiod) (by rw [hon]; rfl)).trans ?_)
    cases s.out.next <;> rfl
  case disable =>
    exact takenAs_showOrder rfl rfl hl (by decide) hm
      (outputConfigBody_done (enable := false) (periodOk_iff.mpr hperiod) (by rw [hoff]; rfl))
  case expiry =>
    refine ⟨gainFrame s, event_quiet hr (if_pos (outputDue_iff.mpr hdue)) rfl, rfl, fun slot =>
      ⟨fun c hc honly => ?_, fun hnone => ?_⟩⟩
    · rw [gainFrame_codes, slotCode_fed hc honly]
      rfl
    · rw [gainFrame_codes, slotCode_unfed hnone]
  case setRange =>
    refine refusedAs_showOrder rfl rfl hl (by decide) hm (by decide) (windowSetBody_range ?_)
    exact hrange.imp windowOf_eq_none.mpr windowFields_eq_none
  case clearRange =>
    exact refusedAs_showOrder rfl rfl hl (by decide) hm (by decide)
      (windowClearBody_range (windowOf_eq_none.mpr hrange))
  case configRange =>
    refine refusedAs_showOrder rfl rfl hl (by decide) hm (by decide) (outputConfigBody_range ?_)
    exact hrange.imp (fun hp => Bool.eq_false_iff.mpr fun hk => hp (periodOk_iff.mp hk)) flagOf_of_lt

end OutputTimer

end Sys2Proof.Machine

/-! Link supervision (R168–R173). -/

namespace Sys2Proof.Machine

open Sys2Proof.Safety

/-! ### The link state found again (R172, R173) -/

section LinkState

variable {s : State}

theorem foundLink_zero (h : s.sup.counter = 0) : foundLink s = .linked :=
  if_pos h

theorem foundLink_above (h : s.sup.counter ≠ 0) (hlost : s.sup.config.threshold ≤ s.sup.counter) :
    foundLink s = .lost :=
  (if_neg h).trans (if_pos hlost)

theorem foundLink_below (h : s.sup.counter ≠ 0) (hbelow : s.sup.counter < s.sup.config.threshold) :
    foundLink s = if s.sup.link = .lost then .lost else .degraded := by
  refine (if_neg h).trans ((if_neg (Nat.not_le.mpr hbelow)).trans ?_)
  cases s.sup.link <;> rfl

/-- LOST stays until the counter is 0 (R172). -/
theorem foundLink_lost (h : s.sup.counter ≠ 0) (hlink : s.sup.link = .lost) : foundLink s = .lost := by
  rcases Nat.lt_or_ge s.sup.counter s.sup.config.threshold with hbelow | hlost
  · rw [foundLink_below h hbelow, if_pos hlink]
  · exact foundLink_above h hlost

theorem withLink_self {link : LinkState} (h : s.sup.link = link) : withLink link s = s := by
  subst h
  rfl

theorem lossAction_report (h : s.sup.config.action = .report) : lossAction s = s := by
  unfold lossAction
  rw [h]

theorem lossAction_local (h : s.sup.config.action = .localMode) : lossAction s = setLocal true s := by
  unfold lossAction
  rw [h]

theorem lossAction_noCue (h : s.sup.config.action = .safe)
    (hcue : isStored s.cues.table s.sup.config.safeCue = false) :
    lossAction s = latch .noSafeCue (setLocal true s) := by
  unfold lossAction
  rw [h]
  exact if_neg (Bool.eq_false_iff.mp hcue)

theorem lossAction_safe (h : s.sup.config.action = .safe)
    (hcue : isStored s.cues.table s.sup.config.safeCue = true) : lossAction s = startSafeGoto (setLocal true s) := by
  unfold lossAction
  rw [h]
  exact if_pos hcue

/-- The state at an entry into LOST, before its action (R172). -/
def enteredLost (s : State) : State :=
  latch .linkLost (withLink .lost s)

theorem relink_entersLost (hlink : s.sup.link = .linked ∨ s.sup.link = .degraded) (h : s.sup.counter ≠ 0)
    (hlost : s.sup.config.threshold ≤ s.sup.counter) : relink s = lossAction (enteredLost s) := by
  refine relink_of_lost (foundLink_above h hlost) ?_
  rcases hlink with hlink | hlink <;> rw [hlink] <;> decide

/-- Settles O48, from the link state that the counter and T come to. -/
theorem linkStateFound : Obligations.LinkStateFound := by
  intro s
  refine ⟨fun _ hc => ?linked, fun hlink hc => ?lostStays, fun hlink hc hbelow => ?degraded,
    fun hlink hc hbelow => ?degradedStays, fun hlink hc hlost => ⟨fun haction => ?report, fun haction => ?isolated,
      fun haction hcue => ?noCue, fun haction hcue => ?safe⟩⟩
  case linked =>
    by_cases hlink : s.sup.link = .linked
    · exact (relink_of_same ((foundLink_zero hc).trans hlink.symm)).trans (withLink_self hlink).symm
    · exact relink_of_linked (foundLink_zero hc) hlink
  case lostStays => exact relink_of_same ((foundLink_lost hc hlink).trans hlink.symm)
  case degraded =>
    have hfound : foundLink s = .degraded := by rw [foundLink_below hc hbelow, hlink]; rfl
    exact relink_of_degraded hfound (by rw [hlink]; decide)
  case degradedStays =>
    have hfound : foundLink s = .degraded := by rw [foundLink_below hc hbelow, hlink]; rfl
    exact relink_of_same (hfound.trans hlink.symm)
  case report => exact (relink_entersLost hlink hc hlost).trans (lossAction_report (s := enteredLost s) haction)
  case isolated => exact (relink_entersLost hlink hc hlost).trans (lossAction_local (s := enteredLost s) haction)
  case noCue => exact (relink_entersLost hlink hc hlost).trans (lossAction_noCue (s := enteredLost s) haction hcue)
  case safe =>
    refine (relink_entersLost hlink hc hlost).trans ((lossAction_safe (s := enteredLost s) haction hcue).trans ?_)
    unfold startSafeGoto
    have hplay : (setLocal true (enteredLost s)).play = s.play := rfl
    rw [hplay]
    cases s.play.state <;> rfl

end LinkState

/-! ### SUPERVISION CONFIG (R168, R170) -/

section SupervisionConfig

variable {p : List Byte} {s : State} {c : SupervisionConfig}

theorem windowLengthOk_iff {n : Nat} : windowLengthOk n = true ↔ n ∈ [100, 250, 500, 1000, 2500] := by
  simp [windowLengthOk, or_assoc]

/-- The fields of SUPERVISION CONFIG in range (R168). -/
def SupervisionFits (p : List Byte) : Prop :=
  byteAt p 0 ≤ 1 ∧ wordAt p 1 ∈ [100, 250, 500, 1000, 2500] ∧ 1 ≤ byteAt p 3 ∧ byteAt p 3 ≤ 15
    ∧ byteAt p 4 ≤ 2 ∧ wordAt p 5 ≤ 60000

theorem supervisionFields_fits (h : supervisionFields p = some c) : SupervisionFits p := by
  unfold supervisionFields at h
  split at h
  next henable haction =>
    split at h
    next hrange =>
      simp only [Bool.and_eq_true, decide_eq_true_eq, windowLengthOk_iff] at hrange
      obtain ⟨⟨⟨hwindow, hlow⟩, hhigh⟩, hcue⟩ := hrange
      have hone : ¬1 < byteAt p 0 := fun hn => by rw [flagOf_of_lt hn] at henable; cases henable
      have htwo : ¬2 < byteAt p 4 := fun hn => by rw [actionOf_eq_none.mpr hn] at haction; cases haction
      exact ⟨Nat.not_lt.mp hone, hwindow, hlow, hhigh, Nat.not_lt.mp htwo, hcue⟩
    next => cases h
  next => cases h

theorem supervisionFields_of_fits {action : LossAction} (h : SupervisionFits p)
    (haction : actionOf (byteAt p 4) = some action) : supervisionFields p =
      some { enable := byteAt p 0 == 1, window := wordAt p 1, threshold := byteAt p 3, action := action
             safeCue := wordAt p 5, safeTime := clampTenths (wordAt p 7), key := p.getD 9 0, seed := p.getD 10 0 } := by
  obtain ⟨henable, hwindow, hlow, hhigh, _, hcue⟩ := h
  unfold supervisionFields
  rw [flagOf_of_le henable, haction]
  refine if_pos ?_
  simp only [Bool.and_eq_true, decide_eq_true_eq, windowLengthOk_iff]
  exact ⟨⟨⟨hwindow, hlow⟩, hhigh⟩, hcue⟩

theorem supervisionConfigBody_range (h : ¬SupervisionFits p) : supervisionConfigBody p s = .refuse .range [] := by
  unfold supervisionConfigBody
  cases hfields : supervisionFields p with
  | none => rfl
  | some c => exact absurd (supervisionFields_fits hfields) h

theorem supervisionConfigBody_done (h : supervisionFields p = some c) :
    supervisionConfigBody p s = .done [] (configureSupervision c s) := by
  unfold supervisionConfigBody
  rw [h]

theorem configureSupervision_starts (hwindow : s.sup.window = none) (henable : c.enable = true) :
    configureSupervision c s = { s with sup := { s.sup with
      config := c, counter := 0, question := firstQuestion c.seed, link := .linked
      window := some ⟨c.window, 0⟩ } } := by
  unfold configureSupervision
  rw [hwindow, henable]
  rfl

theorem configureSupervision_runs (hwindow : s.sup.window ≠ none) (henable : c.enable = true) :
    configureSupervision c s = relink { s with sup := { s.sup with config := c } } := by
  unfold configureSupervision
  rw [Option.isSome_iff_ne_none.mpr hwindow, henable]

theorem configureSupervision_ends (hwindow : s.sup.window ≠ none) (henable : c.enable = false) :
    configureSupervision c s =
      { s with sup := { s.sup with config := c, window := none, counter := 0, link := .off } } := by
  unfold configureSupervision
  rw [Option.isSome_iff_ne_none.mpr hwindow, henable]

theorem configureSupervision_rests (hwindow : s.sup.window = none) (henable : c.enable = false) :
    configureSupervision c s = { s with sup := { s.sup with config := c } } := by
  unfold configureSupervision
  rw [hwindow, henable]
  rfl

/-- Settles O49, by the enable before and after. -/
theorem supervisionConfigured : Obligations.SupervisionConfigured := by
  intro f s hl hm
  refine ⟨fun hrange => ?range, fun action hfits haction => ?taken⟩
  case range =>
    exact refusedAs_showOrder rfl rfl hl (by decide) hm (by decide) (supervisionConfigBody_range hrange)
  case taken =>
    have hdone {t : State} := fun (ht : configureSupervision _ s = t) =>
      takenAs_showOrder (i := .supervisionConfig f) rfl rfl hl (by decide) hm
        ((supervisionConfigBody_done (supervisionFields_of_fits hfits haction)).trans
          (congrArg (OrderResult.done []) ht))
    exact ⟨fun hwindow henable => hdone (configureSupervision_starts hwindow henable),
      fun hwindow henable => hdone (configureSupervision_runs hwindow henable),
      fun hwindow henable => hdone (configureSupervision_ends hwindow henable),
      fun hwindow henable => hdone (configureSupervision_rests hwindow henable)⟩

end SupervisionConfig

/-! ### HEARTBEAT and the window's expiry (R169–R171) -/

section Heartbeat

variable {f : OrderFrame} {b : Byte} {s : State} {w : SupervisionWindow}

theorem nextQuestion_toNat : ∀ q : Byte, (nextQuestion q).toNat = 2 * q.toNat % 256 +
    ((q.getLsbD 7).toNat + (q.getLsbD 5).toNat + (q.getLsbD 4).toNat + (q.getLsbD 3).toNat) % 2 := by decide

theorem expectedAnswer_eq (q key : Byte) :
    expectedAnswer q key = BitVec.ofNat 8 ((5 * q.toNat + 0x3B) % 256) ^^^ key := by
  have hsum : 5 * q + 0x3B = BitVec.ofNat 8 ((5 * q.toNat + 0x3B) % 256) := by
    apply BitVec.eq_of_toNat_eq
    rw [BitVec.toNat_add, BitVec.toNat_mul, BitVec.toNat_ofNat, Nat.mod_mod]
    exact (Nat.mod_add_mod _ _ _)
  unfold expectedAnswer
  rw [hsum]

theorem judgeAnswer_early (h : w.elapsed < w.length / 4) : judgeAnswer s.sup w b = .early :=
  if_pos h

theorem judgeAnswer_good (h : w.length / 4 ≤ w.elapsed)
    (hb : b = expectedAnswer s.sup.question s.sup.config.key) : judgeAnswer s.sup w b = .good :=
  (if_neg (Nat.not_lt.mpr h)).trans (if_pos hb)

theorem judgeAnswer_wrong (h : w.length / 4 ≤ w.elapsed)
    (hb : b ≠ expectedAnswer s.sup.question s.sup.config.key) : judgeAnswer s.sup w b = .wrong :=
  (if_neg (Nat.not_lt.mpr h)).trans (if_neg hb)

theorem heartbeatBody_disabled {p : List Byte} (h : s.sup.window = none) :
    heartbeatBody p s = .done (heartbeatBytes .wrong s.sup) s := by
  unfold heartbeatBody
  rw [h]

/-- With supervision disabled the counter is 0 and the link OFF (R168, R171). -/
theorem linkLegal_of_disabled (hlegal : LinkStateLegal s) (h : s.sup.window = none) :
    s.sup.counter = 0 ∧ s.sup.link = .off := by
  obtain ⟨-, -, -, hstate⟩ := hlegal
  rw [h] at hstate
  cases hlink : s.sup.link <;> rw [hlink] at hstate
  case off => exact ⟨hstate.2, rfl⟩
  all_goals cases hstate.1

/-- The state after a verdict: counter and question take its values, a new window runs, the link is found again. -/
def judged (counter : Nat) (question : Byte) (s : State) : State :=
  relink { s with sup := { s.sup with
    counter := counter, question := question, window := some ⟨s.sup.config.window, 0⟩ } }

theorem judged_counter (counter : Nat) (question : Byte) (s : State) :
    (judged counter question s).sup.counter = counter :=
  (relink_sup _).2.1

theorem judged_question (counter : Nat) (question : Byte) (s : State) :
    (judged counter question s).sup.question = question :=
  (relink_sup _).1

theorem heartbeatBody_judged {p : List Byte} {v : Verdict} {counter : Nat} {question : Byte}
    (hw : s.sup.window = some w) (hv : judgeAnswer s.sup w (p.getD 0 0) = v)
    (hafter : s.sup.afterVerdict v = { s.sup with counter := counter, question := question }) :
    heartbeatBody p s = .done [v.code, question, nat8 counter, (judged counter question s).sup.link.code]
      (judged counter question s) := by
  have hjudged : relink { s with sup := (s.sup.afterVerdict v).newWindow } = judged counter question s := by
    rw [hafter]
    rfl
  unfold heartbeatBody
  rw [hw]
  dsimp only
  rw [hv, hjudged, heartbeatBytes, judged_counter, judged_question]

theorem actWindowExpiry_due (hw : s.sup.window = some w) (h : w.length ≤ w.elapsed) :
    actWindowExpiry s = judged (min 15 (s.sup.counter + 1)) s.sup.question s :=
  if_pos (windowDue_iff.mpr ⟨w, hw, h⟩)

/-- Settles O47, verdict by verdict. -/
theorem heartbeatsJudged : Obligations.HeartbeatsJudged := by
  refine ⟨⟨nextQuestion_ne_zero, nextQuestion_toNat, expectedAnswer_eq, rfl, fun seed hseed => if_neg hseed,
    rfl, rfl, rfl, rfl, rfl, rfl⟩, fun f b s hp => ⟨fun hwindow => ?disabled, fun w hw => ?window⟩,
    fun s w hr hw hdue => ?expiry⟩
  case disabled =>
    have hread := readAs_readOrder (i := .heartbeat f) rfl rfl (congrArg List.length hp) (by decide)
      (heartbeatBody_disabled hwindow)
    refine ⟨hread, fun hlegal => ?_⟩
    obtain ⟨hcounter, hlink⟩ := linkLegal_of_disabled hlegal hwindow
    rw [heartbeatBytes, hcounter, hlink] at hread
    exact hread
  case window =>
    have hbyte : f.payload.getD 0 0 = b := by rw [hp]; rfl
    have hread := fun {v : Verdict} {counter : Nat} {question : Byte} (hv : judgeAnswer s.sup w b = v)
        (hafter : s.sup.afterVerdict v = { s.sup with counter := counter, question := question }) =>
      readAs_readOrder (i := .heartbeat f) rfl rfl (congrArg List.length hp) (by decide)
        (heartbeatBody_judged hw (hbyte.symm ▸ hv) hafter)
    exact ⟨fun hearly => hread (judgeAnswer_early hearly) rfl,
      fun hopen hgood => hread (judgeAnswer_good hopen hgood) rfl,
      fun hopen hwrong => hread (judgeAnswer_wrong hopen hwrong) rfl⟩
  case expiry => exact (event_run hr _).trans (by rw [actWindowExpiry_due hw hdue]; rfl)

end Heartbeat

end Sys2Proof.Machine

/-! The Status Unit and its orders (R159, R178–R183). -/

namespace Sys2Proof.Machine

open Sys2Proof.Safety

/-! ### STATUS READ (R182) -/

section StatusRead

variable {p : List Byte} {s : State}

theorem clear_all (u : StatusUnit) : u.clear u.latch = { u with latch := 0 } := by
  unfold StatusUnit.clear
  rw [BitVec.and_not_self]

theorem statusReadBody_eq (p : List Byte) (s : State) : statusReadBody p s = .done (statusBytes s)
    (if s.status.policy = .readClears then { s with status := { s.status with latch := 0 } } else s) := by
  unfold statusReadBody
  cases s.status.policy
  · rfl
  · dsimp only
    rw [clear_all]
    rfl

/-- Settles O51, by the clear policy. -/
theorem statusReadReports : Obligations.StatusReadReports := by
  intro f s hp
  refine readAs_readOrder rfl rfl (List.length_eq_zero_iff.mpr hp) (by decide) ((statusReadBody_eq _ _).trans ?_)
  cases s.status.policy <;> rfl

end StatusRead

/-! ### STATUS CLEAR, STATUS MASK, ATTENTION CONFIG and ADDRESS MASK SET -/

section StatusOrders

variable {p : List Byte} {s : State}

theorem statusClearBody_done {events : EventSet} (h : eventSetOf (wordAt p 0) = some events) :
    statusClearBody p s = .done [] { s with status := s.status.clear events } := by
  unfold statusClearBody
  rw [h]

theorem statusClearBody_range (h : eventSetOf (wordAt p 0) = none) : statusClearBody p s = .refuse .range [] := by
  unfold statusClearBody
  rw [h]

theorem statusMaskBody_done {events : EventSet} (h : eventSetOf (wordAt p 0) = some events) :
    statusMaskBody p s = .done [] { s with status := { s.status with mask := events } } := by
  unfold statusMaskBody
  rw [h]

theorem statusMaskBody_range (h : eventSetOf (wordAt p 0) = none) : statusMaskBody p s = .refuse .range [] := by
  unfold statusMaskBody
  rw [h]

theorem attentionConfigBody_done {mode : AttentionMode} {policy : ClearPolicy}
    (hmode : modeOf (byteAt p 0) = some mode) (hpolicy : policyOf (byteAt p 1) = some policy) :
    attentionConfigBody p s = .done [] { s with status := { s.status.setMode mode with policy := policy } } := by
  unfold attentionConfigBody
  rw [hmode, hpolicy]

theorem attentionConfigBody_range (h : modeOf (byteAt p 0) = none ∨ policyOf (byteAt p 1) = none) :
    attentionConfigBody p s = .refuse .range [] := by
  unfold attentionConfigBody
  split
  next hmode hpolicy => rcases h with h | h <;> simp_all
  next => rfl

theorem byteAt_singleton (b : Byte) : byteAt [b] 0 = b.toNat := rfl

theorem addressMaskSetBody_done {b : Byte} (h : b.toNat < 32) : addressMaskSetBody [b] s =
    .done [b] { s with link := { s.link with mask := b.setWidth 5 } } := by
  have hmask : BitVec.ofNat 5 b.toNat = b.setWidth 5 := by rw [BitVec.ofNat_toNat]
  have hbyte : nat8 b.toNat = b := (BitVec.ofNat_toNat 8 b).trans (BitVec.setWidth_eq b)
  unfold addressMaskSetBody
  rw [byteAt_singleton, if_neg (by omega), hmask, hbyte]

theorem addressMaskSetBody_range {b : Byte} (h : 32 ≤ b.toNat) :
    addressMaskSetBody [b] s = .refuse .range [] :=
  if_pos h

theorem actAttnPulse_due (hmode : s.status.mode = .pulse) (h : 0 < s.status.pulses) :
    actAttnPulse s = { s with status := { s.status with pulses := s.status.pulses - 1 } } :=
  if_pos (Bool.and_eq_true_iff.mpr ⟨decide_eq_true hmode, decide_eq_true h⟩)

end StatusOrders

/-! ### Latched events and ATTN (R178, R180) -/

section Attention

variable {u : StatusUnit} {e : Event} {s : State}

theorem countPulse_pulses (u : StatusUnit) (e : Event) : (u.countPulse e).pulses =
    if u.mode = .pulse ∧ u.masked e = false then min 255 (u.pulses + 1) else u.pulses := by
  unfold StatusUnit.countPulse
  split <;> rfl

/-- One pulse for each passage of an unmasked event to latched, in PULSE mode, up to 255 (R180). -/
theorem record_pulses (u : StatusUnit) (e : Event) : (u.record e).pulses =
    if u.latched e = false ∧ u.mode = .pulse ∧ u.masked e = false then min 255 (u.pulses + 1) else u.pulses := by
  unfold StatusUnit.record
  cases hlatched : u.latched e
  · simp only [true_and]
    exact countPulse_pulses u e
  · rfl

/-- Each bit of an event set is an event's. -/
theorem exists_event_index : ∀ i : Fin 13, ∃ e : Event, e.index = i.val
  | 0 => ⟨.cueDone, rfl⟩
  | 1 => ⟨.endReached, rfl⟩
  | 2 => ⟨.lockSkip, rfl⟩
  | 3 => ⟨.touchStuck, rfl⟩
  | 4 => ⟨.surfaceLost, rfl⟩
  | 5 => ⟨.frameError, rfl⟩
  | 6 => ⟨.groupRefused, rfl⟩
  | 7 => ⟨.goIgnored, rfl⟩
  | 8 => ⟨.resolveDone, rfl⟩
  | 9 => ⟨.linkDegraded, rfl⟩
  | 10 => ⟨.linkLost, rfl⟩
  | 11 => ⟨.noSafeCue, rfl⟩
  | 12 => ⟨.stateChanged, rfl⟩

theorem event_index_lt (e : Event) : e.index < 13 := by
  cases e <;> decide

theorem unmasked_eq_zero_iff :
    u.latch &&& ~~~u.mask = 0 ↔ ∀ e : Event, ¬(u.latched e = true ∧ u.masked e = false) := by
  have hbit : ∀ i < 13, (u.latch &&& ~~~u.mask).getLsbD i = (u.latch.getLsbD i && !u.mask.getLsbD i) := fun i hi => by
    rw [BitVec.getLsbD_and, BitVec.getLsbD_not, decide_eq_true hi, Bool.true_and]
  constructor
  · rintro h e ⟨hlatched, hmasked⟩
    have hzero := hbit e.index (event_index_lt e)
    unfold StatusUnit.latched at hlatched
    unfold StatusUnit.masked at hmasked
    rw [h, hlatched, hmasked] at hzero
    exact absurd hzero (by simp)
  · intro h
    apply BitVec.eq_of_getLsbD_eq
    intro i hi
    obtain ⟨e, he⟩ := exists_event_index ⟨i, hi⟩
    have hnot := h e
    unfold StatusUnit.latched StatusUnit.masked at hnot
    rw [he] at hnot
    rw [hbit i hi]
    revert hnot
    dsimp only
    cases u.latch.getLsbD i <;> cases u.mask.getLsbD i <;> simp

theorem attnLine_low_iff (hr : s.inReset = false) (hmode : s.status.mode = .level) :
    attnLine s = .low ↔ ∃ e : Event, s.status.latched e = true ∧ s.status.masked e = false := by
  have hline : attnLine s = if s.status.latch &&& ~~~s.status.mask = 0 then .released else .low := by
    unfold attnLine
    rw [hr, hmode]
    rfl
  rw [hline]
  split
  next hzero => exact iff_of_false nofun (not_exists.mpr (unmasked_eq_zero_iff.mp hzero))
  next hset =>
    refine iff_of_true rfl (Classical.byContradiction fun hnone => ?_)
    exact hset (unmasked_eq_zero_iff.mpr (not_exists.mp hnone))

/-- Settles O52, order by order and from the bits of the latch. -/
theorem statusOrdersTaken : Obligations.StatusOrdersTaken := by
  refine ⟨fun f s => ⟨fun hl => ⟨fun hn => ⟨?clear, ?mask⟩, fun hn => ⟨?clearRange, ?maskRange⟩,
    fun hrange => ?configRange,
    fun mode policy hmode hpolicy => ?config⟩, fun hr hmode hpulses => ?pulse⟩,
    fun f b s hp hm => ⟨fun hb => ?address, fun hb => ?addressRange⟩, record_latched, record_pulses,
    fun s hr hmode => attnLine_low_iff hr hmode⟩
  case clear => exact takenAs_openOrder rfl rfl hl (by decide) (statusClearBody_done (eventSetOf_of_lt hn))
  case mask => exact takenAs_openOrder rfl rfl hl (by decide) (statusMaskBody_done (eventSetOf_of_lt hn))
  case clearRange =>
    exact refusedAs_openOrder rfl rfl hl (by decide) (by decide) (statusClearBody_range (eventSetOf_of_ge hn))
  case maskRange =>
    exact refusedAs_openOrder rfl rfl hl (by decide) (by decide) (statusMaskBody_range (eventSetOf_of_ge hn))
  case configRange =>
    exact refusedAs_openOrder rfl rfl hl (by decide) (by decide)
      (attentionConfigBody_range (hrange.imp modeOf_eq_none.mpr policyOf_eq_none.mpr))
  case config => exact takenAs_openOrder rfl rfl hl (by decide) (attentionConfigBody_done hmode hpolicy)
  case pulse => exact event_quiet hr (actAttnPulse_due hmode hpulses) rfl
  case address =>
    exact takenAs_showOrder rfl rfl (congrArg List.length hp) (by decide) hm (hp ▸ addressMaskSetBody_done hb)
  case addressRange =>
    exact refusedAs_showOrder rfl rfl (congrArg List.length hp) (by decide) hm (by decide)
      (hp ▸ addressMaskSetBody_range hb)

end Attention

end Sys2Proof.Machine
